-- ==== Sys2Proof/Word.lean ====
section
/-! DEFINITION. The words of the FN6120: bytes and fields as the layouts of 11_formats.md carry them, and the
bounded numbers that the chapters give to the node's tables. -/

namespace Sys2Proof

/-- A byte of a frame, a cell or a panel message (R207). -/
abbrev Byte := BitVec 8
/-- A two-byte field, most significant byte first (R207). -/
abbrev Half := BitVec 16
/-- An epoch 0..255; arithmetic on it wraps (R27). -/
abbrev Epoch := BitVec 8
/-- A 24-bit two's-complement sample (R59). -/
abbrev Sample := BitVec 24
/-- A set of switcher source ids, as its 32-byte bitmap (R147, R207). -/
abbrev SourceSet := BitVec 256

/-- A point id 0..1023 (R80). -/
abbrev PointId := Fin 1024
/-- A conference C0..C63 (R81). -/
abbrev ConfId := Fin 64
/-- A trunk slot T0..T127 (R59). -/
abbrev SlotId := Fin 128
/-- A destination D0..D63 (R60). -/
abbrev DestId := Fin 64
/-- A mix output M0..M23 (R104). -/
abbrev MixId := Fin 24
/-- An origin index (R82). -/
abbrev OriginId := Fin 64
/-- A key map (R128). -/
abbrev MapId := Fin 8
/-- A key of a key map (R129). -/
abbrev KeyId := Fin 32
/-- A panel line PL0..PL7 (R124). -/
abbrev LineId := Fin 8
/-- A tally bus B0..B15 (R147). -/
abbrev BusId := Fin 16
/-- A GPI input G0..G15 (R151). -/
abbrev GpiId := Fin 16
/-- A logical lamp TL0..TL39 (R157). -/
abbrev LampId := Fin 40
/-- A lamp line P0..P47 (R168). -/
abbrev WireId := Fin 48
/-- A talk priority 0..3 (R82). -/
abbrev Prio := Fin 4

end Sys2Proof
end

