-- ==== Sys2Proof/Syntax.lean ====
section
/-! DEFINITION. The commands of the FN6120: one constructor of `Instr` for each row of spec/opcode_table.json, with the
operands that the layouts of 11_formats.md give it. Field values are raw: the owning rule judges them. -/

namespace Sys2Proof

/-- The two trunk ports (01, Ports, directions and straps). -/
inductive Port where
  | east | west
  deriving DecidableEq, Repr

/-- One slot of a frame: the valid mark byte and the sample (R208). -/
structure WireSlot where
  mark : Byte
  sample : Sample
  deriving DecidableEq, Repr

/-- What follows the header of an ORIGINATED frame: slots, cell slot occupancy byte and the 47 bytes of the cell slot
(R208). -/
structure FrameBody where
  slots : Vector WireSlot 128
  occupancy : Byte
  cell : List Byte
  deriving DecidableEq, Repr

/-- A trunk frame on a link, field by field as R208 lays it out. An IDLE frame ends with its header. -/
structure WireFrame where
  kind : Byte
  orig : Byte
  marker : Byte
  epoch : Byte
  check : Half
  body : Option FrameBody
  deriving DecidableEq, Repr

/-- Payload of a TALK_ON cell (R209). -/
structure TalkOnMsg where
  kind : Byte
  id : Half
  origin : Byte
  point : Half
  slot : Byte
  prio : Byte
  deriving DecidableEq, Repr

/-- Payload of a TALK_OFF cell (R209). -/
structure TalkOffMsg where
  kind : Byte
  id : Half
  origin : Byte
  deriving DecidableEq, Repr

/-- Payload of a TALK_REPLY cell (R209). -/
structure TalkReplyMsg where
  kind : Byte
  id : Half
  origin : Byte
  outcome : Byte
  deriving DecidableEq, Repr

/-- Payload of a CONF_ON cell (R209). -/
structure ConfOnMsg where
  conf : Byte
  node : Byte
  origin : Byte
  point : Half
  slot : Byte
  prio : Byte
  lease : Byte
  deriving DecidableEq, Repr

/-- Payload of a CONF_OFF cell (R209). -/
structure ConfOffMsg where
  conf : Byte
  node : Byte
  origin : Byte
  deriving DecidableEq, Repr

/-- Payload of a CALL cell (R209). -/
structure CallMsg where
  target : Half
  caller : Half
  duration : Byte
  deriving DecidableEq, Repr

/-- Payload of a CALL_CANCEL cell (R209). -/
structure CancelMsg where
  target : Half
  caller : Half
  deriving DecidableEq, Repr

/-- Payload of a TALLY_SET cell (R209): bus, target mode and epoch, source set. -/
structure TallySetMsg where
  bus : Byte
  mode : Byte
  epoch : Byte
  set : SourceSet
  deriving DecidableEq, Repr

/-- Payload of a REPLY cell (R209): request kind, reply code, fields. -/
structure ReplyMsg where
  kind : Byte
  code : Byte
  fields : List Byte
  deriving DecidableEq, Repr

/-- Fields of a TAKE request (R67, R211): target mode and epoch, pair count, and the whole pairs of destination and
source that the payload holds. -/
structure TakeMsg where
  mode : Byte
  epoch : Byte
  count : Byte
  pairs : List (Byte × Half)
  deriving DecidableEq, Repr

/-- A talker list: the direct list of a mix output or the list of a conference (R90). -/
inductive ListId where
  | direct (m : MixId)
  | conf (c : ConfId)
  deriving DecidableEq, Repr

/-- The commands: one constructor for each row of the table, in the table's order. A request or a received cell
carries its source address and its tag. -/
inductive Instr where
  /-- PIN_RESET: the address straps and the head strap. -/
  | pinReset (addr : BitVec 6) (head : Bool)
  /-- FRAME_ARRIVAL: the port and the frame. -/
  | frameArrival (p : Port) (f : WireFrame)
  /-- MISSING_FRAME: the port. -/
  | missingFrame (p : Port)
  /-- OUTPUT_FRAME_SEND: the port whose output sends. -/
  | outputFrameSend (p : Port)
  /-- SAMPLE_PERIOD: the TDM input samples L0..L31 of the period. -/
  | samplePeriod (tdm : Vector Sample 32)
  /-- REFERENCE_PULSE. -/
  | referencePulse
  /-- REFERENCE_LOST. -/
  | referenceLost
  /-- SCHEDULED_SWITCH_POINT. -/
  | scheduledSwitchPoint
  /-- HEAD_FREE_RUN. -/
  | headFreeRun
  /-- EPOCH_HOLD_OFF_END. -/
  | epochHoldOffEnd
  /-- LOCAL_SWITCH_POINT. -/
  | localSwitchPoint
  /-- ORIGIN_RESEND: the origin index. -/
  | originResend (idx : OriginId)
  /-- LEASE_EXPIRY: the list and the talker. -/
  | leaseExpiry (l : ListId) (node : Byte) (idx : OriginId)
  /-- CALL_EXPIRY: the pair of the call. -/
  | callExpiry (target caller : PointId)
  /-- KEY_WINDOW_END: the key. -/
  | keyWindowEnd (map : MapId) (key : KeyId)
  /-- ROUTE_COUNTDOWN_END: the key. -/
  | routeCountdownEnd (map : MapId) (key : KeyId)
  /-- LOAD_ABANDONED. -/
  | loadAbandoned
  /-- LAMP_PERIOD_START. -/
  | lampPeriodStart
  /-- FAULT_SENSE: the readings of a frame, bit n set where Pn's sense reads fault. -/
  | faultSense (reads : BitVec 48)
  /-- GPI_SAMPLE: the closed contacts, bit n for Gn. -/
  | gpiSample (closed : BitVec 16)
  /-- SCAN: the panel line and the bytes of the message. -/
  | scan (line : LineId) (bytes : List Byte)
  /-- AUTO_HOLD_REACHED: the key. -/
  | autoHoldReached (map : MapId) (key : KeyId)
  /-- PANEL_TIMEOUT: the line. -/
  | panelTimeout (line : LineId)
  /-- TALK_ON cell. -/
  | talkOn (src tag : Byte) (m : TalkOnMsg)
  /-- TALK_OFF cell. -/
  | talkOff (src tag : Byte) (m : TalkOffMsg)
  /-- TALK_REPLY cell. -/
  | talkReply (src tag : Byte) (m : TalkReplyMsg)
  /-- CONF_ON cell. -/
  | confOn (src tag : Byte) (m : ConfOnMsg)
  /-- CONF_OFF cell. -/
  | confOff (src tag : Byte) (m : ConfOffMsg)
  /-- CALL cell. -/
  | call (src tag : Byte) (m : CallMsg)
  /-- CALL_CANCEL cell. -/
  | callCancel (src tag : Byte) (m : CancelMsg)
  /-- TALLY_SET cell. -/
  | tallySet (src tag : Byte) (m : TallySetMsg)
  /-- REPLY cell. -/
  | reply (src tag : Byte) (m : ReplyMsg)
  /-- QUERY request: table or view code, start index, count. -/
  | query (src tag table : Byte) (start count : Half)
  /-- SET of a ROUTE entry: index and entry bytes (R213), as for the other table writes. -/
  | routeWrite (src tag : Byte) (index : Half) (entry : List Byte)
  | mixWrite (src tag : Byte) (index : Half) (entry : List Byte)
  | confWrite (src tag : Byte) (index : Half) (entry : List Byte)
  | keymapWrite (src tag : Byte) (index : Half) (entry : List Byte)
  | keyWrite (src tag : Byte) (index : Half) (entry : List Byte)
  | cameraWrite (src tag : Byte) (index : Half) (entry : List Byte)
  | tallymapWrite (src tag : Byte) (index : Half) (entry : List Byte)
  | lineWrite (src tag : Byte) (index : Half) (entry : List Byte)
  | substWrite (src tag : Byte) (index : Half) (entry : List Byte)
  | gpiWrite (src tag : Byte) (index : Half) (entry : List Byte)
  | schedWrite (src tag : Byte) (index : Half) (entry : List Byte)
  /-- SET of a NODE parameter: the value, as for the other five (R193). -/
  | controllerAddressWrite (src tag : Byte) (value : Half)
  | leaseWrite (src tag : Byte) (value : Half)
  | freeRunIntervalWrite (src tag : Byte) (value : Half)
  | switchOffsetWrite (src tag : Byte) (value : Half)
  | flashCycleWrite (src tag : Byte) (value : Half)
  | holdThresholdWrite (src tag : Byte) (value : Half)
  /-- LOAD_OPEN request: table code, start index, declared count. -/
  | loadOpen (src tag table : Byte) (start count : Half)
  /-- LOAD_DATA request: segment number and data bytes. -/
  | loadData (src tag seg : Byte) (data : List Byte)
  /-- TAKE request. -/
  | take (src tag : Byte) (m : TakeMsg)
  /-- PROTECT request: destination and mode. -/
  | protect (src tag dest mode : Byte)
  /-- RELEASE request. -/
  | release (src tag dest : Byte)
  /-- AIRLOCK request. -/
  | airlock (src tag dest : Byte)
  /-- SHOW_LOCK request. -/
  | showLock (src tag : Byte)
  /-- CLEAR request whose item set names one event kind. -/
  | clearEventFlag (src tag : Byte) (event : Fin 16)
  /-- CLEAR request whose item set names the port counters; so for the other six items. -/
  | clearPortCounters (src tag : Byte)
  | clearCellCounters (src tag : Byte)
  | clearPanelCounters (src tag : Byte)
  | clearTallyCounters (src tag : Byte)
  | clearCollisionFlags (src tag : Byte)
  | clearClippedFlags (src tag : Byte)
  | clearLampFaults (src tag : Byte)
  /-- STATUS request: page. -/
  | status (src tag page : Byte)
  /-- IDENTIFY request. -/
  | identify (src tag : Byte)
  /-- RESET_PREPARE request. -/
  | resetPrepare (src tag : Byte)
  /-- RESET_EXECUTE request. -/
  | resetExecute (src tag : Byte)
  /-- A request of unknown kind: the kind byte. -/
  | unknownRequest (src tag kind : Byte)
  deriving DecidableEq, Repr

end Sys2Proof
end

