-- ==== Sys2Proof/Decode.lean ====
section
/-! DEFINITION. The commands as words of the opcode table. No row of spec/opcode_table.json gives bits ("fields": [] in
every row, no "fixed"): the part has no instruction encoding, so no word spells a command (log 2). The bytes of frames,
cells and panel messages are read in Machine/Operands.lean. -/

namespace Sys2Proof

/-- No row of the table has bits, so no word spells a command. -/
def decodeTableWord (_nbits _w : Nat) : Option Instr := none

end Sys2Proof
end

