-- ==== Sys2Proof/Config.lean ====
section
/-! DEFINITION. What the part fixes once for all (identity, limits) and the FREE VALUES: constants with no body, so
that nothing can be proved of what they are. -/

namespace Sys2Proof

/-- R96: at one switch point the refresh of an origin entry served internally and the countdown of its talker's lease: "either
may be taken first". True: the refresh is taken first. FREE VALUE, applied to the state's choice counter and the origin index,
since each talker entry has a choice of its own (log 5). -/
opaque Config.refreshFirst : Nat → OriginId → Bool

/-- R71, R76, R150: a marker and a cell that arrive in the same sample period may be taken in either order. True: the
marker of a frame is taken before its cell. FREE VALUE, applied to the state's choice counter (log 9). -/
opaque Config.markerFirst : Nat → Bool

/-- R208 gives the slot mark byte the values 0x01 and 0x00 and says nothing of others. True: the slot counts as valid.
FREE VALUE (log 10). -/
opaque Config.oddMarkValid : Byte → Bool

/-- R209 places a cell's check after 0..40 payload bytes; a length byte above 40 leaves it no place. True: the check
of such a cell counts as correct. FREE VALUE, applied to the bytes of the cell slot (log 11). -/
opaque Config.longCheckGood : List Byte → Bool

/-- Vendor code of the identity record (R201). -/
def Config.vendorCode : Nat := 0x52A
/-- Part code of the identity record (R201). -/
def Config.partCode : Nat := 6120
/-- Die revision of the identity record (R201). -/
def Config.dieRevision : Nat := 1
/-- The strapped address at `State.reset`. DESIGN CHOICE (log 1): the straps are outside the part. -/
def Config.resetAddress : BitVec 6 := 1
/-- The head strap at `State.reset`. DESIGN CHOICE (log 1). -/
def Config.resetHead : Bool := false

end Sys2Proof
end

