-- ==== Sys2Proof/Machine/State.lean ====
section
/-! DEFINITION. The state of one FN6120: every register, table, list, counter, mark and output pin that the chapters
give it, block by block, the queue of waiting commands, and the values after pin reset. -/

namespace Sys2Proof.Machine

open Sys2Proof

/-! ### Fixed-length tables

`vof` and `vmap` build a vector through a list, so that Lean's kernel can evaluate them. -/

/-- The vector whose entry `i` is `f i`. -/
def vof {α : Type} (n : Nat) (f : Fin n → α) : Vector α n :=
  ⟨⟨(List.finRange n).map f⟩, by simp⟩

/-- `f` applied to every entry. -/
def vmap {α β : Type} {n : Nat} (f : α → β) (v : Vector α n) : Vector β n :=
  ⟨⟨v.toList.map f⟩, by simp⟩

/-- The entry at `i` replaced by `f` of it. -/
def vmod {α : Type} {n : Nat} (v : Vector α n) (i : Fin n) (f : α → α) : Vector α n :=
  v.set i (f v[i])

/-! ### Trunk Interface (01_the_trunk_ring.md) -/

/-- Lock state of a port input (R7). -/
inductive LockState where
  | noSignal | acquiring | locked | lost
  deriving DecidableEq, Repr

/-- Content of an output (R12). -/
inductive Content where
  | idle | originated | forwarded
  deriving DecidableEq, Repr

/-- Ring mode of the active head (R10). -/
inductive RingMode where
  | closed | opened
  deriving DecidableEq, Repr

/-- Link integrity status, ordered as listed (R23). -/
inductive Integrity where
  | clean | isolated | repeated | persistent
  deriving DecidableEq, Repr

/-- Current role (R24). -/
inductive Role where
  | member | headClosed | headOpen | headYielded
  deriving DecidableEq, Repr

/-- A direction round the ring: CW leaves at East, CCW leaves at West (01). -/
inductive Dir where
  | cw | ccw
  deriving DecidableEq, Repr

/-- The mark an output holds for its next frame: the head's pending mark (R32) or a member's relay mark (R34). -/
structure OutMark where
  epoch : Epoch
  relay : Bool
  deriving DecidableEq, Repr

/-- One trunk port: its input's lock, runs, counters and integrity, the slots read in the period, and its output's
forwarding buffer, mark and last frame. -/
structure PortState where
  lock : LockState
  goodRun : Nat
  badRun : Nat
  seen : Bool
  idlePeriods : Nat
  missed : Nat
  badHeaders : Nat
  badCells : Nat
  integrity : Integrity
  curBad : Nat
  prevBad : Bool
  copy : Option (Vector WireSlot 128)
  buffer : Option WireFrame
  mark : Option OutMark
  sent : Bool
  out : Option WireFrame
  deriving DecidableEq, Repr

/-- The Trunk Interface (R1, R10, R11, R25). -/
structure Trunk where
  addr : Byte
  headStrap : Bool
  yielded : Bool
  conflictReported : Bool
  mode : RingMode
  east : PortState
  west : PortState
  deriving DecidableEq, Repr

/-! ### Switch Point Unit (02_switch_points_and_epochs.md) -/

/-- Reference state (R27, R28). -/
inductive RefState where
  | ok | lost | notUsed
  deriving DecidableEq, Repr

/-- Last switch point origin (R27). -/
inductive SpOrigin where
  | reference | headFreeRun | marker | localFreeRun | none
  deriving DecidableEq, Repr

/-- The Switch Point Unit (R40); I and O stand with the NODE parameters. `epoch` none is UNKNOWN. -/
structure SwitchUnit where
  epoch : Option Epoch
  ref : RefState
  sincePulse : Nat
  schedule : List Nat
  freeRun : Nat
  origin : SpOrigin
  sinceReset : Nat
  holdEnded : Bool
  pulseTaken : Bool
  made : Bool
  deriving DecidableEq, Repr

/-! ### Cell Engine (03_cells_and_queues.md) -/

/-- Cell classes, in code order (R41, R203). -/
inductive CellClass where
  | urgent | talk | reply | event
  deriving DecidableEq, Repr

/-- One value for each class. -/
structure ByClass (α : Type) where
  urgent : α
  talk : α
  reply : α
  event : α
  deriving DecidableEq, Repr

/-- A cell: header and payload (R42). `len` is the length byte. -/
structure Cell where
  kind : Byte
  dest : Byte
  src : Byte
  tag : Byte
  len : Byte
  payload : List Byte
  deriving DecidableEq, Repr

/-- A queued cell with its outstanding-direction set and its sent mark (R50). -/
structure QCell where
  cell : Cell
  cw : Bool
  ccw : Bool
  sent : Bool
  deriving DecidableEq, Repr

/-- The Cell Engine (R57). -/
structure CellEngine where
  queues : ByClass (List QCell)
  free : Nat
  tag : Byte
  exhausted : Bool
  schedLen : Nat
  sched : Vector CellClass 32
  cwIndex : Nat
  ccwIndex : Nat
  loss : ByClass Nat
  undeliverable : ByClass Nat
  unknownKind : Nat
  malformed : Nat
  misaddressed : Nat
  deriving DecidableEq, Repr

/-! ### Feed Router (04_feed_routing.md) -/

/-- A source (R59). -/
inductive Source where
  | silence
  | tdm (n : Fin 32)
  | slot (n : SlotId)
  | mix (n : MixId)
  deriving DecidableEq, Repr

/-- A target as held: an epoch or NEXT (R38). -/
inductive Target where
  | epoch (e : Epoch)
  | next
  deriving DecidableEq, Repr

/-- Protection with its owner, which FREE and AIRLOCKED do not have (R60, R72). -/
inductive Protection where
  | free
  | protectedBy (owner : Byte)
  | lockedBy (owner : Byte)
  | airlocked
  deriving DecidableEq, Repr

/-- A take accepted and not yet applied (R60). -/
structure PendingTake where
  source : Source
  target : Target
  requester : Byte
  deriving DecidableEq, Repr

/-- A route entry (R60); the insert slot and collision flag are used by D32..D63. -/
structure RouteEntry where
  active : Source
  prot : Protection
  pending : Option PendingTake
  slot : Option SlotId
  collision : Bool
  deriving DecidableEq, Repr

/-- The last refusal by protection (R68). -/
structure LastRefusal where
  dest : DestId
  requester : Byte
  epoch : Option Epoch
  deriving DecidableEq, Repr

/-- The Feed Router (R60, R61, R62, R78): the route table, the TDM outputs, and what D32 + n inserts in the frames of
the period. -/
structure Router where
  routes : Vector RouteEntry 64
  lastRefusal : Option LastRefusal
  tdmOut : Vector Sample 32
  insertions : Vector (Option (SlotId × Sample)) 32
  deriving DecidableEq, Repr

/-! ### Talk Authority (05_talk_authority_and_conferences.md) -/

/-- A talk target (R82). -/
inductive TalkTarget where
  | point (p : PointId)
  | conf (c : ConfId)
  deriving DecidableEq, Repr

/-- State of an origin entry (R82). -/
inductive OriginState where
  | requested | granted | denied | displaced | noAnswer
  deriving DecidableEq, Repr

/-- An origin entry (R82). -/
structure OriginEntry where
  map : MapId
  key : KeyId
  sub : Option (Fin 4)
  target : TalkTarget
  point : Option PointId
  slot : SlotId
  prio : Prio
  state : OriginState
  countdown : Nat
  unanswered : Nat
  deriving DecidableEq, Repr

/-- A talker entry (R90). -/
structure Talker where
  node : Byte
  origin : OriginId
  point : Option PointId
  slot : SlotId
  prio : Prio
  lease : Nat
  deriving DecidableEq, Repr

/-- A conference entry: the list is authoritative while `home` is set, else a mirror (R81). -/
structure ConfEntry where
  home : Bool
  list : List Talker
  deriving DecidableEq, Repr

/-- The Talk Authority (R102). -/
structure TalkAuthority where
  origins : Vector (Option OriginEntry) 64
  pointer : OriginId
  direct : Vector (List Talker) 24
  confs : Vector ConfEntry 64
  deriving DecidableEq, Repr

/-! ### Mix Engine (06_the_mix_engine.md) -/

/-- A mix output record with its state (R104). `ifb` false is LISTENER. -/
structure MixRec where
  ifb : Bool
  point : Option PointId
  own : Option SlotId
  subs : List ConfId
  talkGain : Nat
  listen : Nat
  prog : Option Source
  full : Nat
  dim : Nat
  step : Nat
  threshold : Nat
  g : Nat
  clipped : Bool
  prev : Sample
  deriving DecidableEq, Repr

/-- An entry of a contributing set as it is handed to the Key Processor (R114). -/
structure Contrib where
  node : Byte
  origin : OriginId
  point : Option PointId
  slot : SlotId
  prio : Prio
  deriving DecidableEq, Repr

/-- The Mix Engine: the records and the contributing sets last handed over. -/
structure MixEngine where
  recs : Vector MixRec 24
  contrib : Vector (List Contrib) 24
  deriving DecidableEq, Repr

/-! ### Panel Line Controller and Key Processor (07_panel_lines_and_keys.md) -/

/-- Line state (R124). -/
inductive LineState where
  | absent | bound | unbound | duplicate
  deriving DecidableEq, Repr

/-- A panel line (R124, R126, R122). `scanNo` is the number of the previous valid SCAN since the line entered ABSENT;
`lamps` is the LAMPS message last sent. -/
structure PanelLine where
  state : LineState
  panelId : Option Byte
  scanNo : Option Byte
  map : Option MapId
  timeout : Nat
  badScans : Nat
  lamps : Option (List Byte)
  deriving DecidableEq, Repr

/-- A key map record (R128); panel id 0 is unused. -/
structure KeyMap where
  panelId : Byte
  listen : MixId
  slot : SlotId
  point : Option PointId
  prio : Prio
  deriving DecidableEq, Repr

/-- A key's function with its target (R129). -/
inductive KeyFn where
  | none
  | talkPoint (p : PointId)
  | talkConf (c : ConfId)
  | talkTally (b : BusId) (cap : Nat)
  | listenConf (c : ConfId)
  | call (p : PointId) (duration : Nat)
  | route (node : Byte) (dest : DestId) (source : Source)
  deriving DecidableEq, Repr

/-- Key mode (R129). -/
inductive KeyMode where
  | momentary | latching | auto
  deriving DecidableEq, Repr

/-- Which edges a key reports (R129). -/
inductive KeyReport where
  | none | press | release | both
  deriving DecidableEq, Repr

/-- Key lamp colour (R122). -/
inductive Colour where
  | red | green | amber
  deriving DecidableEq, Repr

/-- A key entry (R129). -/
structure KeyEntry where
  fn : KeyFn
  mode : KeyMode
  invert : Bool
  debounce : Nat
  report : KeyReport
  colour : Colour
  deriving DecidableEq, Repr

/-- AUTO mode state (R132). -/
inductive AutoState where
  | idle | holding | momentaryHold | latched | ending
  deriving DecidableEq, Repr

/-- Route state of a ROUTE key (R140). -/
inductive RouteKey where
  | idle
  | awaiting (node : Byte) (tag : Option Byte) (count : Nat)
  | confirm (count : Nat)
  | refused (count : Nat)
  deriving DecidableEq, Repr

/-- What an activation's subscription toggle did (R136). -/
inductive ToggleDone where
  | added | removed
  deriving DecidableEq, Repr

/-- The running state of a key: conditioning (R130), mode (R131, R132) and function (R133 to R140). `window` none is a
refusal window that is not running. -/
structure KeyState where
  cond : Bool
  run : Nat
  held : Bool
  active : Bool
  auto : AutoState
  hold : Nat
  refusedLocal : Bool
  resolved : List PointId
  refusedPoints : List PointId
  toggled : Option ToggleDone
  window : Option Nat
  route : RouteKey
  deriving DecidableEq, Repr

/-- The Panel Line Controller and the Key Processor (R146); key `k` of map `m` stands at `m × 32 + k`. -/
structure Panel where
  lines : Vector PanelLine 8
  maps : Vector KeyMap 8
  entries : Vector KeyEntry 256
  keys : Vector KeyState 256
  deriving DecidableEq, Repr

/-! ### Tally Resolver (08_tally_and_calls.md) -/

/-- A drive of a logical lamp (R158, R164). -/
inductive Drive where
  | off
  | steady
  | dim (level : Nat)
  | flash (a b : Nat)
  | pulse
  deriving DecidableEq, Repr

/-- A bus record (R147). -/
structure Bus where
  active : SourceSet
  pending : Option (SourceSet × Target)
  deriving DecidableEq, Repr

/-- A GPI entry (R151). -/
structure GpiEntry where
  enable : Bool
  invert : Bool
  debounce : Nat
  latch : Bool
  source : Byte
  deriving DecidableEq, Repr

/-- The state of a GPI (R151). -/
structure GpiState where
  cond : Bool
  run : Nat
  mark : Bool
  deriving DecidableEq, Repr

/-- A tally map term (R157); its drive is STEADY, DIM or FLASH. -/
structure Term where
  bus : BusId
  source : Byte
  drive : Drive
  air : Bool
  deriving DecidableEq, Repr

/-- A tally map record (R157). -/
structure TallyRec where
  terms : List Term
  callPoint : Option PointId
  deriving DecidableEq, Repr

/-- A call entry (R161). -/
structure Call where
  target : PointId
  caller : PointId
  remaining : Nat
  deriving DecidableEq, Repr

/-- The Tally Resolver (R166). `gpiDue`: the sample of the current frame is still to be taken (R152). -/
structure Tally where
  buses : Vector Bus 16
  gpi : Vector GpiEntry 16
  gpiState : Vector GpiState 16
  gpiCount : Nat
  gpiDue : Bool
  camera : Vector (Option PointId) 256
  map : Vector TallyRec 40
  calls : List Call
  drives : Vector Drive 40
  rejects : Nat
  deriving DecidableEq, Repr

/-! ### Lamp Line Driver (09_lamp_line_drivers.md) -/

/-- Role of a line (R168). -/
inductive LineRole where
  | normal | spare
  deriving DecidableEq, Repr

/-- Fault mode of a line (R168). -/
inductive FaultMode where
  | retry | latch
  deriving DecidableEq, Repr

/-- Fault state of a line (R168). -/
inductive FaultState where
  | ok | retrying | latched
  deriving DecidableEq, Repr

/-- A lamp line (R168), with what R180 asks of the current period (`onSeen`, `faultSeen`). `tripped`: the retry-off mark
was set in the current frame and holds from the next (R180). `heldOff`: a CLEAR of the current frame found the line off
by its fault, and it is driven on from the next (R184). -/
structure LampLine where
  role : LineRole
  mode : FaultMode
  autoSpare : Bool
  fault : FaultState
  count : Nat
  retryOff : Bool
  tripped : Bool
  heldOff : Bool
  onSeen : Bool
  faultSeen : Bool
  deriving DecidableEq, Repr

/-- Pulse state of a generator (R172, R178). -/
inductive PulseState where
  | waiting (e : Option Epoch)
  | phase (n : Fin 4)
  deriving DecidableEq, Repr

/-- The generator of a logical lamp (R172). -/
structure Generator where
  drive : Drive
  level : Nat
  pulse : PulseState
  deriving DecidableEq, Repr

/-- The Lamp Line Driver (R187): lines, substitution links in install order, generators, the period count and the lamp
line pins. `periodDue`: the period start of the current frame is still to be taken (R173). `senseDue`: the fault readings
of the current frame are still to be taken (R180). -/
structure LampDriver where
  lines : Vector LampLine 48
  links : List (LampId × WireId)
  gens : Vector Generator 40
  periodCount : Nat
  periodDue : Bool
  senseDue : Bool
  lampOut : Vector Bool 48
  deriving DecidableEq, Repr

/-! ### Management Responder (10_management_requests.md) -/

/-- Reply codes, in code order (R190). -/
inductive Code where
  | ok | replaced | late | busy | protectedBy | locked | range | invalid | duplicateSlot | sequence | unknown
  deriving DecidableEq, Repr

/-- The twelve tables, in code order (R192, R211). -/
inductive Table where
  | route | mix | conf | keymap | key | camera | tallymap | line | subst | gpi | sched | node
  deriving DecidableEq, Repr

/-- The NODE parameters (R193). -/
structure Params where
  ctrl : Nat
  lease : Nat
  interval : Nat
  offset : Nat
  flash : Nat
  hold : Nat
  deriving DecidableEq, Repr

/-- An open bulk load (R196). `declared` none is an open count. -/
structure LoadRec where
  table : Table
  requester : Byte
  nextIndex : Nat
  declared : Option Nat
  judged : Nat
  refused : Nat
  first : Option (Code × Nat)
  nextSeg : Byte
  lastSeg : Option Byte
  part : List Byte
  abandon : Nat
  deriving DecidableEq, Repr

/-- The load record (R196): closed with the memory of the last closed load (requester, last accepted segment), or
open. -/
inductive Load where
  | closed (memory : Option (Byte × Byte))
  | opened (r : LoadRec)
  deriving DecidableEq, Repr

/-- An entry of the requester table (R191): `reply` is the code byte and fields after the kind byte. -/
structure ReqEntry where
  kind : Byte
  tag : Byte
  reply : List Byte
  count : Nat
  deriving DecidableEq, Repr

/-- The Management Responder (R206). Entry `a` of `requesters` is that of address `a`; addresses 0 and 63 have none.
Bit `n` of `sticky` is the flag of event code `n`. -/
structure Mgmt where
  params : Params
  showLock : Bool
  load : Load
  requesters : Vector (Option ReqEntry) 64
  sticky : BitVec 16
  deriving DecidableEq, Repr

/-! ### The whole node -/

/-- What a sample period reads as it stood at the start of the period (R61, R109). -/
structure PeriodStart where
  routes : Vector RouteEntry 64
  recs : Vector MixRec 24
  direct : Vector (List Talker) 24
  confs : Vector ConfEntry 64
  deriving DecidableEq, Repr

/-- The node, the model's choice counter, and the queue of waiting commands. -/
structure State where
  trunk : Trunk
  sp : SwitchUnit
  cells : CellEngine
  router : Router
  talk : TalkAuthority
  mix : MixEngine
  panel : Panel
  tally : Tally
  lamp : LampDriver
  mgmt : Mgmt
  start : PeriodStart
  freeCount : Nat
  pending : List Instr
  deriving DecidableEq, Repr

/-- Reasons a command can fault. There are none: the spec gives every command an effect in every state, or says that
the event does not occur. -/
inductive Fault where
  deriving DecidableEq, Repr

/-- Reasons a command can be refused. -/
inductive Refusal where
  /-- Raised only by an arm of `exec` whose command has no meaning yet. Safe: the machine stops. -/
  | notModelled (mnemonic : String)
  deriving DecidableEq, Repr

/-! ### Values after pin reset -/

/-- A port after pin reset (R25, R40). -/
def PortState.reset : PortState :=
  { lock := .noSignal, goodRun := 0, badRun := 0, seen := false, idlePeriods := 0, missed := 0,
    badHeaders := 0, badCells := 0, integrity := .clean, curBad := 0, prevBad := false, copy := none,
    buffer := none, mark := none, sent := false, out := none }

/-- The Trunk Interface after pin reset with these straps (R1, R25). -/
def Trunk.reset (addr : BitVec 6) (head : Bool) : Trunk :=
  { addr := addr.setWidth 8, headStrap := head, yielded := false, conflictReported := false, mode := .closed,
    east := PortState.reset, west := PortState.reset }

/-- R1: an address of 1..62 makes the node a ring member. -/
def isMemberAddr (addr : BitVec 6) : Bool := addr != 0 && addr != 63

/-- The Switch Point Unit after pin reset (R40). -/
def SwitchUnit.reset (addr : BitVec 6) (head : Bool) : SwitchUnit :=
  { epoch := none, ref := if isMemberAddr addr && head then .lost else .notUsed, sincePulse := 0, schedule := [],
    freeRun := 0, origin := .none, sinceReset := 0, holdEnded := false, pulseTaken := false, made := false }

/-- The same value for every class. -/
def ByClass.all {α : Type} (a : α) : ByClass α := { urgent := a, talk := a, reply := a, event := a }

/-- The default slot schedule (R53). -/
def schedReset : Vector CellClass 32 :=
  vof 32 fun i =>
    if i.val = 1 ∨ i.val = 5 then .talk else if i.val = 3 then .reply else if i.val = 7 then .event else .urgent

/-- The Cell Engine after pin reset (R57). -/
def CellEngine.reset : CellEngine :=
  { queues := ByClass.all [], free := 128, tag := 0, exhausted := false, schedLen := 8, sched := schedReset,
    cwIndex := 0, ccwIndex := 0, loss := ByClass.all 0, undeliverable := ByClass.all 0, unknownKind := 0,
    malformed := 0, misaddressed := 0 }

/-- A route entry after reset (R78). -/
def RouteEntry.reset : RouteEntry :=
  { active := .silence, prot := .free, pending := none, slot := none, collision := false }

/-- The Feed Router after pin reset (R78). -/
def Router.reset : Router :=
  { routes := vof 64 fun _ => RouteEntry.reset, lastRefusal := none, tdmOut := vof 32 fun _ => 0,
    insertions := vof 32 fun _ => none }

/-- The Talk Authority after either reset (R102, R103). -/
def TalkAuthority.reset : TalkAuthority :=
  { origins := vof 64 fun _ => none, pointer := 0, direct := vof 24 fun _ => [],
    confs := vof 64 fun _ => { home := false, list := [] } }

/-- A mix output record after either reset (R121). -/
def MixRec.reset : MixRec :=
  { ifb := false, point := none, own := none, subs := [], talkGain := 4096, listen := 4096, prog := none,
    full := 4096, dim := 1024, step := 64, threshold := 4, g := 4096, clipped := false, prev := 0 }

/-- The Mix Engine after either reset (R121). The contributing sets that the Key Processor holds are empty: R121 gives them no
value (DESIGN CHOICE, log 58). -/
def MixEngine.reset : MixEngine :=
  { recs := vof 24 fun _ => MixRec.reset, contrib := vof 24 fun _ => [] }

/-- A panel line after pin reset (R146). -/
def PanelLine.reset : PanelLine :=
  { state := .absent, panelId := none, scanNo := none, map := none, timeout := 0, badScans := 0, lamps := none }

/-- Key map `n` after either reset (R128). -/
def KeyMap.reset (n : MapId) : KeyMap :=
  { panelId := 0, listen := ⟨n.val, by omega⟩, slot := ⟨n.val, by omega⟩, point := none, prio := 1 }

/-- A key entry after either reset (R129). -/
def KeyEntry.reset : KeyEntry :=
  { fn := .none, mode := .momentary, invert := false, debounce := 2, report := .none, colour := .red }

/-- A key's running state after either reset (R146). The hold count is 0 and no toggle is recorded: R146 gives neither a value
(DESIGN CHOICE, log 59). -/
def KeyState.reset : KeyState :=
  { cond := false, run := 0, held := false, active := false, auto := .idle, hold := 0, refusedLocal := false,
    resolved := [], refusedPoints := [], toggled := none, window := none, route := .idle }

/-- The Panel Line Controller and Key Processor after pin reset (R146). -/
def Panel.reset : Panel :=
  { lines := vof 8 fun _ => PanelLine.reset, maps := vof 8 KeyMap.reset, entries := vof 256 fun _ => KeyEntry.reset,
    keys := vof 256 fun _ => KeyState.reset }

/-- GPI entry `n` after either reset (R151). -/
def GpiEntry.reset (n : GpiId) : GpiEntry :=
  { enable := false, invert := false, debounce := 1, latch := false, source := BitVec.ofNat 8 (240 + n.val) }

/-- The Tally Resolver after pin reset (R166). -/
def Tally.reset : Tally :=
  { buses := vof 16 fun _ => { active := 0, pending := none }, gpi := vof 16 GpiEntry.reset,
    gpiState := vof 16 fun _ => { cond := false, run := 0, mark := false }, gpiCount := 0, gpiDue := true,
    camera := vof 256 fun _ => none, map := vof 40 fun _ => { terms := [], callPoint := none }, calls := [],
    drives := vof 40 fun _ => .off, rejects := 0 }

/-- Line `n` after either reset (R187). -/
def LampLine.reset (n : WireId) : LampLine :=
  { role := if n.val < 40 then .normal else .spare, mode := .retry, autoSpare := false, fault := .ok, count := 0,
    retryOff := false, tripped := false, heldOff := false, onSeen := false, faultSeen := false }

/-- The Lamp Line Driver after pin reset (R187). -/
def LampDriver.reset : LampDriver :=
  { lines := vof 48 LampLine.reset, links := [],
    gens := vof 40 fun _ => { drive := .off, level := 0, pulse := .waiting none }, periodCount := 0,
    periodDue := true, senseDue := true, lampOut := vof 48 fun _ => false }

/-- The NODE defaults (R193). -/
def Params.reset : Params := { ctrl := 0, lease := 40, interval := 1920, offset := 0, flash := 16, hold := 60 }

/-- The Management Responder after pin reset (R206). -/
def Mgmt.reset : Mgmt :=
  { params := Params.reset, showLock := false, load := .closed none, requesters := vof 64 fun _ => none, sticky := 0 }

/-- What the first sample period after reset reads (R61, R109): the reset values. -/
def PeriodStart.reset : PeriodStart :=
  { routes := Router.reset.routes, recs := MixEngine.reset.recs, direct := TalkAuthority.reset.direct,
    confs := TalkAuthority.reset.confs }

/-- The node right after a pin reset that samples these straps. -/
def State.pinReset (addr : BitVec 6) (head : Bool) : State :=
  { trunk := Trunk.reset addr head, sp := SwitchUnit.reset addr head, cells := CellEngine.reset,
    router := Router.reset, talk := TalkAuthority.reset, mix := MixEngine.reset, panel := Panel.reset,
    tally := Tally.reset, lamp := LampDriver.reset, mgmt := Mgmt.reset, start := PeriodStart.reset,
    freeCount := 0, pending := [] }

/-- The machine right after reset: pin reset with the straps that log 1 chooses, and an empty queue. -/
def State.reset : State := State.pinReset Config.resetAddress Config.resetHead

end Sys2Proof.Machine
end

