-- ==== Sys2Proof/Machine/Operands.lean ====
section
/-! DEFINITION. The operand forms: the encodings of 11_formats.md. Bytes, checks, frames, cells, requests, sources,
targets and the codes of enumerations, both ways. -/

namespace Sys2Proof.Machine

open Sys2Proof

/-! ### Bytes (R207) -/

/-- The low byte of a number. -/
def b8 (n : Nat) : Byte := BitVec.ofNat 8 n
/-- A number as two bytes, most significant first. -/
def b16 (n : Nat) : List Byte := [b8 (n / 256), b8 n]
/-- The byte at offset `i`; 0 past the end. -/
def byteAt (bs : List Byte) (i : Nat) : Byte := bs.getD i 0
/-- Two bytes as a field, most significant first. -/
def half (hi lo : Byte) : Half := BitVec.ofNat 16 (hi.toNat * 256 + lo.toNat)
/-- The two-byte field at offset `i`. -/
def halfAt (bs : List Byte) (i : Nat) : Half := half (byteAt bs i) (byteAt bs (i + 1))
/-- A two-byte field as bytes. -/
def halfBytes (h : Half) : List Byte := b16 h.toNat
/-- A set as a bitmap of `n` bytes: member m is bit m mod 8 of byte m div 8. -/
def bitmap (n : Nat) (set : Nat) : List Byte := (List.range n).map fun i => b8 (set / 256 ^ i)
/-- The set that a bitmap spells, as a number whose bit m is member m. -/
def ofBitmap (bs : List Byte) : Nat := bs.foldr (fun b acc => b.toNat + 256 * acc) 0
/-- The set of indexes at which `p` holds, as a number. -/
def bitsOf (n : Nat) (p : Nat → Bool) : Nat := (List.range n).foldl (fun acc i => if p i then acc + 2 ^ i else acc) 0
/-- A flag as a byte. -/
def flagByte (b : Bool) : Byte := if b then 1 else 0
/-- A flag from a byte that must be 0 or 1 (R207, Enumerations). -/
def readFlag (b : Byte) : Option Bool := if b = 0 then some false else if b = 1 then some true else none

/-! ### The check (R207)

x^16 + x^12 + x^5 + 1, initial value 0xFFFF, no final inversion, most significant bit first. -/

/-- One bit of the check. -/
def crcBit (c : Half) : Half := if c.msb then (c <<< 1) ^^^ 0x1021 else c <<< 1
/-- One byte of the check. -/
def crcByte (c : Half) (b : Byte) : Half :=
  crcBit (crcBit (crcBit (crcBit (crcBit (crcBit (crcBit (crcBit (c ^^^ (b.setWidth 16 <<< 8)))))))))
/-- The check of a run of bytes. -/
def crc (bs : List Byte) : Half := bs.foldl crcByte 0xFFFF

/-! ### Numbers of tables -/

/-- A number as an index below `n`. -/
def asFin (n : Nat) (k : Nat) : Option (Fin n) := if h : k < n then some ⟨k, h⟩ else none

/-- A point field: absent (0xFFFF), a point id, or out of range (R207). -/
def readPointOpt (h : Half) : Option (Option PointId) :=
  if h = 0xFFFF then some none else (asFin 1024 h.toNat).map some
/-- A slot field: absent (0xFF), a slot, or out of range (R207). -/
def readSlotOpt (b : Byte) : Option (Option SlotId) :=
  if b = 0xFF then some none else (asFin 128 b.toNat).map some
/-- A point, or absent, as two bytes. -/
def pointBytes (p : Option PointId) : List Byte :=
  match p with
  | none => [0xFF, 0xFF]
  | some p => b16 p.val
/-- A slot, line, map, output or lamp, or absent, as one byte (R207). -/
def optByte {n : Nat} (x : Option (Fin n)) : Byte :=
  match x with
  | none => 0xFF
  | some i => b8 i.val
/-- An "epoch or UNKNOWN" field (R207). -/
def epochBytes (e : Option Epoch) : List Byte :=
  match e with
  | none => [0xFF, 0xFF]
  | some e => [0, e]

/-- A source as two bytes (R207). -/
def sourceBytes : Source → List Byte
  | .silence => [0, 0]
  | .tdm n => [1, b8 n.val]
  | .slot n => [2, b8 n.val]
  | .mix n => [3, b8 n.val]
/-- A source field; none when it is out of range (R59, R207). -/
def readSource (h : Half) : Option Source :=
  let hi := h.toNat / 256
  let lo := h.toNat % 256
  if hi = 0 then (if lo = 0 then some .silence else none)
  else if hi = 1 then (asFin 32 lo).map .tdm
  else if hi = 2 then (asFin 128 lo).map .slot
  else if hi = 3 then (asFin 24 lo).map .mix
  else none
/-- A source field that may be absent (0xFFFF). -/
def readSourceOpt (h : Half) : Option (Option Source) :=
  if h = 0xFFFF then some none else (readSource h).map some
/-- A source, or absent. -/
def sourceOptBytes (x : Option Source) : List Byte :=
  match x with
  | none => [0xFF, 0xFF]
  | some x => sourceBytes x

/-- A target as two bytes (R207). -/
def targetBytes : Target → List Byte
  | .epoch e => [0, e]
  | .next => [1, 0]
/-- A target field; none when its mode is above 1 (R207). -/
def readTarget (mode epoch : Byte) : Option Target :=
  if mode = 0 then some (.epoch epoch) else if mode = 1 then some .next else none

/-! ### Codes of enumerations (R207) -/

def portCode : Port → Byte | .east => 0 | .west => 1
def lockCode : LockState → Byte | .noSignal => 0 | .acquiring => 1 | .locked => 2 | .lost => 3
def contentCode : Content → Byte | .idle => 0 | .originated => 1 | .forwarded => 2
def integrityCode : Integrity → Byte | .clean => 0 | .isolated => 1 | .repeated => 2 | .persistent => 3
def roleCode : Role → Byte | .member => 0 | .headClosed => 1 | .headOpen => 2 | .headYielded => 3
def dirCode : Dir → Byte | .cw => 0 | .ccw => 1
def refCode : RefState → Byte | .ok => 0 | .lost => 1 | .notUsed => 2
def spOriginCode : SpOrigin → Byte
  | .reference => 0 | .headFreeRun => 1 | .marker => 2 | .localFreeRun => 3 | .none => 4
def classCode : CellClass → Byte | .urgent => 0 | .talk => 1 | .reply => 2 | .event => 3
def protCode : Protection → Byte | .free => 0 | .protectedBy _ => 1 | .lockedBy _ => 2 | .airlocked => 3
def originStateCode : OriginState → Byte
  | .requested => 0 | .granted => 1 | .denied => 2 | .displaced => 3 | .noAnswer => 4
def lineStateCode : LineState → Byte | .absent => 0 | .bound => 1 | .unbound => 2 | .duplicate => 3
def keyModeCode : KeyMode → Byte | .momentary => 0 | .latching => 1 | .auto => 2
def keyReportCode : KeyReport → Byte | .none => 0 | .press => 1 | .release => 2 | .both => 3
def colourCode : Colour → Byte | .red => 0 | .green => 1 | .amber => 2
def lineRoleCode : LineRole → Byte | .normal => 0 | .spare => 1
def faultModeCode : FaultMode → Byte | .retry => 0 | .latch => 1
def faultStateCode : FaultState → Byte | .ok => 0 | .retrying => 1 | .latched => 2
def codeByte : Code → Byte
  | .ok => 0 | .replaced => 1 | .late => 2 | .busy => 3 | .protectedBy => 4 | .locked => 5 | .range => 6
  | .invalid => 7 | .duplicateSlot => 8 | .sequence => 9 | .unknown => 10

/-- Talk target kind and id (R209): POINT 0, CONF 1. -/
def talkTargetBytes : TalkTarget → List Byte
  | .point p => 0 :: b16 p.val
  | .conf c => 1 :: b16 c.val
/-- A talk target; none when the kind is unknown or the id out of range (R91). -/
def readTalkTarget (kind : Byte) (id : Half) : Option TalkTarget :=
  if kind = 0 then (asFin 1024 id.toNat).map .point
  else if kind = 1 then (asFin 64 id.toNat).map .conf
  else none

/-! ### Frames (R4, R5, R208) -/

/-- The bytes that a frame header check covers. -/
def headerBytes (f : WireFrame) : List Byte := [f.kind, f.orig, f.marker, f.epoch]
/-- A good header: its check is correct and its type is IDLE or ORIGINATED (R5, R207). -/
def headerGood (f : WireFrame) : Bool :=
  crc (headerBytes f) == f.check && (f.kind == 0x5A || f.kind == 0xA5)
/-- The type byte is IDLE. -/
def isIdle (f : WireFrame) : Bool := f.kind == 0x5A
/-- The originator address (bits 5..0). -/
def originator (f : WireFrame) : Byte := f.orig &&& 0x3F
/-- The head flag (bit 7). -/
def headFlag (f : WireFrame) : Bool := f.orig.getLsbD 7
/-- The head-passed mark (bit 6). -/
def headPassed (f : WireFrame) : Bool := f.orig.getLsbD 6
/-- The switch marker's epoch, when one is present. -/
def frameMarker (f : WireFrame) : Option Epoch := if f.marker.getLsbD 7 then some f.epoch else none
/-- The frame with its header check computed afresh. -/
def sealFrame (f : WireFrame) : WireFrame := { f with check := crc (headerBytes f) }
/-- The frame with the head-passed mark set. -/
def withPassed (f : WireFrame) : WireFrame := { f with orig := f.orig ||| 0x40 }
/-- The frame with a switch marker of epoch `e`. -/
def withMarker (e : Epoch) (f : WireFrame) : WireFrame := { f with marker := 0x80, epoch := e }

/-- The valid mark of a slot (R208); another byte than 0 and 1 is a free value. -/
def slotValid (x : WireSlot) : Bool :=
  if x.mark = 1 then true else if x.mark = 0 then false else Config.oddMarkValid x.mark
/-- A slot that is not valid, as frames made here start (R4). -/
def emptySlot : WireSlot := { mark := 0, sample := 0 }
/-- The body of a frame made here: no slot valid, cell slot free (R4). -/
def emptyBody : FrameBody :=
  { slots := vof 128 fun _ => emptySlot, occupancy := 0, cell := List.replicate 47 0 }
/-- The body of a frame; a frame that ends early reads as the empty body (log 12). -/
def bodyOf (f : WireFrame) : FrameBody := f.body.getD emptyBody

/-! ### Cells (R41, R42, R209) -/

/-- The known cell kinds, in code order (R209). -/
inductive CellKind where
  | talkOn | talkOff | talkReply | confOn | confOff | call | callCancel | tallySet | request | reply | event
  deriving DecidableEq, Repr

/-- The code of a kind. -/
def kindCode : CellKind → Byte
  | .talkOn => 0 | .talkOff => 1 | .talkReply => 2 | .confOn => 3 | .confOff => 4 | .call => 5 | .callCancel => 6
  | .tallySet => 7 | .request => 8 | .reply => 9 | .event => 10
/-- The kind of a code; none is an unknown kind (R41). -/
def kindOf (b : Byte) : Option CellKind :=
  [CellKind.talkOn, .talkOff, .talkReply, .confOn, .confOff, .call, .callCancel, .tallySet, .request, .reply,
    .event][b.toNat]?
/-- The class in which this node holds a kind for sending; TALLY_SET has none (R41). -/
def kindClass : CellKind → Option CellClass
  | .talkOn => some .talk | .talkOff => some .urgent | .talkReply => some .talk | .confOn => some .urgent
  | .confOff => some .urgent | .call => some .urgent | .callCancel => some .urgent | .tallySet => none
  | .request => some .reply | .reply => some .reply | .event => some .event
/-- The payload lengths allowed for a kind (R209). -/
def lengthOk (k : CellKind) (n : Nat) : Bool :=
  match k with
  | .talkOn => n == 8 | .talkOff => n == 4 | .talkReply => n == 5 | .confOn => n == 8 | .confOff => n == 3
  | .call => n == 5 | .callCancel => n == 4 | .tallySet => n == 35
  | .request => 1 ≤ n && n ≤ 40 | .reply => 2 ≤ n && n ≤ 40 | .event => 1 ≤ n && n ≤ 40

/-- Header and payload of a cell, the bytes its check covers. -/
def cellBytes (c : Cell) : List Byte := [c.kind, c.dest, c.src, c.tag, c.len] ++ c.payload
/-- The 47 bytes of a cell slot that carries the cell (R208, R209). -/
def cellWire (c : Cell) : List Byte :=
  (cellBytes c ++ halfBytes (crc (cellBytes c)) ++ List.replicate 47 0).take 47
/-- The cell in a cell slot, and whether its check is correct (R43). -/
def readCell (bs : List Byte) : Cell × Bool :=
  let n := (byteAt bs 4).toNat
  let c : Cell :=
    { kind := byteAt bs 0, dest := byteAt bs 1, src := byteAt bs 2, tag := byteAt bs 3, len := byteAt bs 4,
      payload := (bs.drop 5).take n }
  (c, if n ≤ 40 then crc (bs.take (5 + n)) == halfAt bs (5 + n) else Config.longCheckGood bs)

/-- A source address that a cell may carry (R42). -/
def sourceOk (src : Byte) : Bool := 1 ≤ src.toNat && src.toNat ≤ 62

def readTalkOn (p : List Byte) : TalkOnMsg :=
  { kind := byteAt p 0, id := halfAt p 1, origin := byteAt p 3, point := halfAt p 4, slot := byteAt p 6,
    prio := byteAt p 7 }
def readTalkOff (p : List Byte) : TalkOffMsg := { kind := byteAt p 0, id := halfAt p 1, origin := byteAt p 3 }
def readTalkReply (p : List Byte) : TalkReplyMsg :=
  { kind := byteAt p 0, id := halfAt p 1, origin := byteAt p 3, outcome := byteAt p 4 }
def readConfOn (p : List Byte) : ConfOnMsg :=
  { conf := byteAt p 0, node := byteAt p 1, origin := byteAt p 2, point := halfAt p 3, slot := byteAt p 5,
    prio := byteAt p 6, lease := byteAt p 7 }
def readConfOff (p : List Byte) : ConfOffMsg := { conf := byteAt p 0, node := byteAt p 1, origin := byteAt p 2 }
def readCall (p : List Byte) : CallMsg := { target := halfAt p 0, caller := halfAt p 2, duration := byteAt p 4 }
def readCancel (p : List Byte) : CancelMsg := { target := halfAt p 0, caller := halfAt p 2 }
def readTallySet (p : List Byte) : TallySetMsg :=
  { bus := byteAt p 0, mode := byteAt p 1, epoch := byteAt p 2, set := BitVec.ofNat 256 (ofBitmap ((p.drop 3).take 32)) }
def readReply (p : List Byte) : ReplyMsg := { kind := byteAt p 0, code := byteAt p 1, fields := p.drop 2 }

/-! ### Requests (R189, R211) -/

/-- A request. `short` is a known kind whose payload is too short for it (R211). -/
inductive Request where
  | query (table : Byte) (start count : Half)
  | set (table : Byte) (index : Half) (entry : List Byte)
  | loadOpen (table : Byte) (start count : Half)
  | loadData (seg : Byte) (data : List Byte)
  | take (m : TakeMsg)
  | protect (dest mode : Byte)
  | release (dest : Byte)
  | airlock (dest : Byte)
  | showLock
  | clear (items : Nat)
  | status (page : Byte)
  | identify
  | resetPrepare
  | resetExecute
  | unknown (kind : Byte)
  | short (kind : Byte)
  deriving DecidableEq, Repr

/-- The kind byte of a request (R211). -/
def requestCode : Request → Byte
  | .query .. => 0 | .set .. => 1 | .loadOpen .. => 2 | .loadData .. => 3 | .take _ => 4 | .protect .. => 5
  | .release _ => 6 | .airlock _ => 7 | .showLock => 8 | .clear _ => 9 | .status _ => 10 | .identify => 11
  | .resetPrepare => 12 | .resetExecute => 13 | .unknown k => k | .short k => k

/-- The whole pairs of destination and source in the bytes of a TAKE. -/
def readPairs : List Byte → List (Byte × Half)
  | d :: hi :: lo :: rest => (d, half hi lo) :: readPairs rest
  | _ => []

/-- The request that the payload of a REQUEST cell spells (R211). Bytes beyond the fields of its kind, of which the rules say
nothing, are ignored (DESIGN CHOICE, log 55). -/
def readRequest (p : List Byte) : Request :=
  let k := byteAt p 0
  let need (n : Nat) (r : Request) : Request := if n ≤ p.length then r else .short k
  match k.toNat with
  | 0 => need 6 (.query (byteAt p 1) (halfAt p 2) (halfAt p 4))
  | 1 => need 4 (.set (byteAt p 1) (halfAt p 2) (p.drop 4))
  | 2 => need 6 (.loadOpen (byteAt p 1) (halfAt p 2) (halfAt p 4))
  | 3 => need 2 (.loadData (byteAt p 1) (p.drop 2))
  | 4 => need 4 (.take { mode := byteAt p 1, epoch := byteAt p 2, count := byteAt p 3, pairs := readPairs (p.drop 4) })
  | 5 => need 3 (.protect (byteAt p 1) (byteAt p 2))
  | 6 => need 2 (.release (byteAt p 1))
  | 7 => need 2 (.airlock (byteAt p 1))
  | 8 => .showLock
  | 9 => need 4 (.clear (ofBitmap ((p.drop 1).take 3)))
  | 10 => need 2 (.status (byteAt p 1))
  | 11 => .identify
  | 12 => .resetPrepare
  | 13 => .resetExecute
  | _ => .unknown k

/-- The views, in code order after the tables (R192, R211). -/
inductive View where
  | origins | talkers | buses | calls | counters
  deriving DecidableEq, Repr

/-- The table of a code (R211). -/
def tableOf (b : Byte) : Option Table :=
  [Table.route, .mix, .conf, .keymap, .key, .camera, .tallymap, .line, .subst, .gpi, .sched, .node][b.toNat]?
/-- The view of a code (R211). -/
def viewOf (b : Byte) : Option View :=
  if b.toNat < 12 then none else [View.origins, .talkers, .buses, .calls, .counters][b.toNat - 12]?
/-- The code of a table. -/
def tableCode : Table → Byte
  | .route => 0 | .mix => 1 | .conf => 2 | .keymap => 3 | .key => 4 | .camera => 5 | .tallymap => 6 | .line => 7
  | .subst => 8 | .gpi => 9 | .sched => 10 | .node => 11
/-- Entries of a table (R192). -/
def tableSize : Table → Nat
  | .route => 64 | .mix => 24 | .conf => 64 | .keymap => 8 | .key => 256 | .camera => 256 | .tallymap => 40
  | .line => 48 | .subst => 40 | .gpi => 16 | .sched => 33 | .node => 6
/-- Bytes of a table's entry (R213). -/
def entrySize : Table → Nat
  | .route => 11 | .mix => 25 | .conf => 1 | .keymap => 6 | .key => 10 | .camera => 2 | .tallymap => 23
  | .line => 5 | .subst => 1 | .gpi => 5 | .sched => 1 | .node => 2
/-- Entries of a view (R192). -/
def viewSize : View → Nat
  | .origins => 64 | .talkers => 704 | .buses => 32 | .calls => 16 | .counters => 24
/-- Bytes of a view's entry (R213). -/
def viewEntrySize : View → Nat
  | .origins => 14 | .talkers => 10 | .buses => 34 | .calls => 5 | .counters => 2

/-! ### Panel messages (R214) -/

/-- The fields of a SCAN (R122). -/
structure Scan where
  panelId : Byte
  scanNo : Byte
  pressed : Nat
  knob : Byte
  deriving DecidableEq, Repr

/-- A valid SCAN: ten bytes, type 0x3C, a correct check, and a panel id 1..255 (R122, R214). -/
def readScan (bs : List Byte) : Option Scan :=
  if bs.length == 10 && byteAt bs 0 == 0x3C && crc (bs.take 8) == halfAt bs 8 && byteAt bs 1 != 0 then
    some { panelId := byteAt bs 1, scanNo := byteAt bs 2, pressed := ofBitmap ((bs.drop 3).take 4), knob := byteAt bs 7 }
  else none

/-- A LAMPS message with these 32 entries (R214). -/
def lampsMessage (entries : List Byte) : List Byte :=
  0xC3 :: entries ++ halfBytes (crc (0xC3 :: entries))

end Sys2Proof.Machine
end

