-- ==== Sys2Proof/Machine/Flags.lean ====
section
/-! DEFINITION. Flags, counters and statuses as the rules move them: saturating counters, the 16 sticky event flags,
link integrity, the lock state of an input, and the late and reach tests on target epochs. -/

namespace Sys2Proof.Machine

open Sys2Proof

/-- A counter 0..65535 that holds at 65535, raised by `k` (R22, R56, R122, R165). -/
def satAdd (n k : Nat) : Nat := min (n + k) 65535

/-- The event kinds, in code order (R209). -/
inductive EventKind where
  | linkChange | headConflict | referenceLost | referenceOk | slotCollision | takeLate | talkExpired | clipped
  | panelChange | keyEvent | tallyLate | lampFault | spareInstalled | spareExhausted | loadAbandoned | poolExhausted
  deriving DecidableEq, Repr

/-- The code of an event kind (R209). -/
def eventCode : EventKind → Nat
  | .linkChange => 0 | .headConflict => 1 | .referenceLost => 2 | .referenceOk => 3 | .slotCollision => 4
  | .takeLate => 5 | .talkExpired => 6 | .clipped => 7 | .panelChange => 8 | .keyEvent => 9 | .tallyLate => 10
  | .lampFault => 11 | .spareInstalled => 12 | .spareExhausted => 13 | .loadAbandoned => 14 | .poolExhausted => 15

/-- R203: a report sets its kind's sticky flag. -/
def setSticky (k : EventKind) (flags : BitVec 16) : BitVec 16 := flags ||| BitVec.ofNat 16 (2 ^ eventCode k)

/-- R202: the event flags that an item set names (its bits 0..15) are cleared. -/
def clearSticky (items : Nat) (flags : BitVec 16) : BitVec 16 := flags &&& ~~~ BitVec.ofNat 16 items

/-! ### Target epochs -/

/-- R37: target `t` is reached at a switch point of epoch `e`. -/
def reached (e : Epoch) (t : Target) : Bool :=
  match t with
  | .next => true
  | .epoch t => (e - t).toNat < 128

/-- R38: target `t` is late against the current epoch. -/
def isLate (current : Option Epoch) (t : Target) : Bool :=
  match current, t with
  | some c, .epoch t => (t - c).toNat = 0 || 128 ≤ (t - c).toNat
  | _, _ => false

/-- R38: the target as it is held. -/
def heldTarget (current : Option Epoch) (t : Target) : Target := if isLate current t then .next else t

/-- R31, R35: the epoch of a switch point this node makes; an UNKNOWN epoch starts from 0. -/
def nextEpoch (current : Option Epoch) : Epoch :=
  match current with
  | none => 0
  | some c => c + 1

/-! ### Input lock (R7) -/

/-- A good header arrives. -/
def lockGood (p : PortState) : PortState :=
  match p.lock with
  | .noSignal => { p with lock := .acquiring, goodRun := 1, badRun := 0 }
  | .acquiring =>
    { p with lock := if p.goodRun + 1 ≥ 8 then .locked else .acquiring, goodRun := min (p.goodRun + 1) 8, badRun := 0 }
  | .locked => { p with badRun := 0 }
  | .lost => { p with lock := .acquiring, goodRun := 1, badRun := 0 }

/-- A bad header arrives, or a missing frame is counted. -/
def lockBad (p : PortState) : PortState :=
  match p.lock with
  | .noSignal => p
  | .acquiring =>
    { p with lock := if p.badRun + 1 ≥ 4 then .lost else .acquiring, goodRun := 0, badRun := min (p.badRun + 1) 4 }
  | .locked => { p with lock := if p.badRun + 1 ≥ 4 then .lost else .locked, badRun := min (p.badRun + 1) 4 }
  | .lost => { p with badRun := 4 }

/-! ### Link integrity (R23) -/

/-- The order CLEAN < ISOLATED < REPEATED < PERSISTENT. -/
def integrityRank : Integrity → Nat
  | .clean => 0 | .isolated => 1 | .repeated => 2 | .persistent => 3
/-- The status raised to `x` if it is lower. -/
def raiseTo (x y : Integrity) : Integrity := if integrityRank y < integrityRank x then x else y

/-- A bad frame is counted: the status and the count of the current interval (0, 1 or more, held as 2). -/
def integrityBad (p : PortState) : PortState :=
  { p with
    integrity :=
      if p.prevBad then .persistent
      else if p.curBad = 0 then raiseTo .isolated p.integrity
      else if p.curBad = 1 then raiseTo .repeated p.integrity
      else p.integrity
    curBad := min (p.curBad + 1) 2 }

/-- A switch point closes the current interval, which becomes the previous one. -/
def integrityClose (p : PortState) : PortState := { p with prevBad := p.curBad != 0, curBad := 0 }

end Sys2Proof.Machine
end

