-- ==== Sys2Proof/Machine/Ops.lean ====
section
/-! DEFINITION. The operations that every block shares: the updates of the state, the roles of the node, cell creation,
pruning and the grant of cell slots, and event reports. -/

namespace Sys2Proof.Machine

open Sys2Proof

/-! ### Updates of one block -/

/-- The Trunk Interface changed by `f`. -/
def State.modTrunk (s : State) (f : Trunk → Trunk) : State := { s with trunk := f s.trunk }
/-- The Switch Point Unit changed by `f`. -/
def State.modSp (s : State) (f : SwitchUnit → SwitchUnit) : State := { s with sp := f s.sp }
/-- The Cell Engine changed by `f`. -/
def State.modCells (s : State) (f : CellEngine → CellEngine) : State := { s with cells := f s.cells }
/-- The Feed Router changed by `f`. -/
def State.modRouter (s : State) (f : Router → Router) : State := { s with router := f s.router }
/-- The Talk Authority changed by `f`. -/
def State.modTalk (s : State) (f : TalkAuthority → TalkAuthority) : State := { s with talk := f s.talk }
/-- The Mix Engine changed by `f`. -/
def State.modMix (s : State) (f : MixEngine → MixEngine) : State := { s with mix := f s.mix }
/-- The panel lines and keys changed by `f`. -/
def State.modPanel (s : State) (f : Panel → Panel) : State := { s with panel := f s.panel }
/-- The Tally Resolver changed by `f`. -/
def State.modTally (s : State) (f : Tally → Tally) : State := { s with tally := f s.tally }
/-- The Lamp Line Driver changed by `f`. -/
def State.modLamp (s : State) (f : LampDriver → LampDriver) : State := { s with lamp := f s.lamp }
/-- The Management Responder changed by `f`. -/
def State.modMgmt (s : State) (f : Mgmt → Mgmt) : State := { s with mgmt := f s.mgmt }
/-- The choice counter moved on by one. -/
def State.countChoice (s : State) : State := { s with freeCount := s.freeCount + 1 }

/-! ### Roles (R10 to R14, R24) -/

/-- The opposite port: the source input of an output (01). -/
def other : Port → Port
  | .east => .west
  | .west => .east

/-- One port of the Trunk Interface. -/
def portOf (t : Trunk) : Port → PortState
  | .east => t.east
  | .west => t.west

/-- One port changed. -/
def modPort (p : Port) (f : PortState → PortState) (t : Trunk) : Trunk :=
  match p with
  | .east => { t with east := f t.east }
  | .west => { t with west := f t.west }

/-- R1: the strapped address makes the node a ring member; otherwise it is a pass-through repeater. -/
def isMember (t : Trunk) : Bool := t.addr != 0 && t.addr != 63
/-- R1, R11: the strapped head is the active head until it yields. -/
def activeHead (t : Trunk) : Bool := isMember t && t.headStrap && !t.yielded
/-- R10: the active head in mode CLOSED. -/
def closingHead (t : Trunk) : Bool := activeHead t && t.mode == .closed
/-- The port's input is LOCKED. -/
def isLocked (t : Trunk) (p : Port) : Bool := (portOf t p).lock == .locked

/-- R12: the content of an output. -/
def content (t : Trunk) (p : Port) : Content :=
  if !isLocked t p then .idle
  else if closingHead t || !isLocked t (other p) then .originated
  else .forwarded

/-- The port at which a direction leaves: CW at East, CCW at West. -/
def dirPort : Dir → Port
  | .cw => .east
  | .ccw => .west
/-- The direction that leaves at a port. -/
def portDir : Port → Dir
  | .east => .cw
  | .west => .ccw

/-- R14: the insertion directions. The closing head with both outputs non-idle inserts CW only. -/
def inserts (t : Trunk) (d : Dir) : Bool :=
  content t (dirPort d) != .idle &&
    !(d == .ccw && closingHead t && content t .east != .idle && content t .west != .idle)

/-- R24: the current role. -/
def roleOf (t : Trunk) : Role :=
  if t.headStrap && t.yielded then .headYielded
  else if activeHead t then (if t.mode == .closed then .headClosed else .headOpen)
  else .member

/-! ### Classes -/

/-- The value of a class. -/
def ByClass.get {α : Type} (b : ByClass α) : CellClass → α
  | .urgent => b.urgent | .talk => b.talk | .reply => b.reply | .event => b.event
/-- The value of a class changed. -/
def ByClass.mod {α : Type} (b : ByClass α) (c : CellClass) (f : α → α) : ByClass α :=
  match c with
  | .urgent => { b with urgent := f b.urgent }
  | .talk => { b with talk := f b.talk }
  | .reply => { b with reply := f b.reply }
  | .event => { b with event := f b.event }
/-- `f` of every class. -/
def ByClass.map {α β : Type} (b : ByClass α) (f : α → β) : ByClass β :=
  { urgent := f b.urgent, talk := f b.talk, reply := f b.reply, event := f b.event }
/-- All cells queued. -/
def queuedCells (c : CellEngine) : Nat :=
  c.queues.urgent.length + c.queues.talk.length + c.queues.reply.length + c.queues.event.length

/-! ### Cell creation (R42, R47, R48, R49) -/

/-- R48: a cell of class `k` is lost for want of a buffer. -/
def loseCell (k : CellClass) (s : State) : State :=
  (s.modCells fun c => { c with loss := c.loss.mod k (satAdd · 1), exhausted := true }).modMgmt
    fun m => { m with sticky := setSticky .poolExhausted m.sticky }

/-- The undeliverable counter of a class rises by `n` (R56). -/
def countUndeliverable (k : CellClass) (n : Nat) (c : CellEngine) : CellEngine :=
  { c with undeliverable := c.undeliverable.mod k (satAdd · n) }

/-- The cell that receives its header in a buffer (R42). -/
def makeCell (kind : CellKind) (dest : Byte) (tag : Byte) (payload : List Byte) (s : State) : Cell :=
  { kind := kindCode kind, dest := dest, src := s.trunk.addr, tag := tag, len := b8 payload.length,
    payload := payload }

/-- R47 without the pending exhaustion report: the destination test, the buffer, the header, the outstanding set. The
answer is the tag of the cell when it was created. `tag` none takes the tag counter. -/
def createRaw (kind : CellKind) (dest : Byte) (tag : Option Byte) (payload : List Byte) (s : State) :
    State × Option Byte :=
  match kindClass kind with
  | none => (s, none)
  | some k =>
    if dest = 0 || dest = s.trunk.addr then (s.modCells (countUndeliverable k 1), none)
    else if s.cells.free = 0 then (loseCell k s, none)
    else
      let t := tag.getD s.cells.tag
      let cell := makeCell kind dest t payload s
      let s' := if tag.isNone then s.modCells fun c => { c with tag := c.tag + 1 } else s
      let cw := inserts s.trunk .cw
      let ccw := inserts s.trunk .ccw
      if cw || ccw then
        (s'.modCells fun c =>
          { c with
            queues := c.queues.mod k (· ++ [{ cell := cell, cw := cw, ccw := ccw, sent := false }])
            free := c.free - 1 }, some t)
      else (s'.modCells (countUndeliverable k 1), some t)

/-- R203: an event cell goes out only while the controller address is 1..62. -/
def controllerSet (m : Mgmt) : Bool := 1 ≤ m.params.ctrl && m.params.ctrl ≤ 62

/-- The loss counters as the POOL_EXHAUSTED event carries them (R49, R210). -/
def lossBytes (c : CellEngine) : List Byte :=
  b16 c.loss.urgent ++ b16 c.loss.talk ++ b16 c.loss.reply ++ b16 c.loss.event

/-- R49: a buffer has returned to the free list. A pending exhaustion report is cleared and made, in that buffer. -/
def bufferReturned (s : State) : State :=
  if s.cells.exhausted then
    let s' := (s.modCells fun c => { c with exhausted := false }).modMgmt
      fun m => { m with sticky := setSticky .poolExhausted m.sticky }
    if controllerSet s'.mgmt then
      (createRaw .event (b8 s'.mgmt.params.ctrl) none (b8 (eventCode .poolExhausted) :: lossBytes s'.cells) s').1
    else s'
  else s

/-- R47: a block creates a cell. A cell created with an empty outstanding set returns its buffer at once. -/
def createCell (kind : CellKind) (dest : Byte) (tag : Option Byte) (payload : List Byte) (s : State) :
    State × Option Byte :=
  let r := createRaw kind dest tag payload s
  if r.2.isSome && !(inserts s.trunk .cw || inserts s.trunk .ccw) then (bufferReturned r.1, r.2) else r

/-- A cell created whose tag the block does not need. -/
def sendCell (kind : CellKind) (dest : Byte) (tag : Option Byte) (payload : List Byte) (s : State) : State :=
  (createCell kind dest tag payload s).1

/-- R203: a report sets its sticky flag and, where the controller address allows, creates an EVENT cell. -/
def report (k : EventKind) (fields : List Byte) (s : State) : State :=
  let s' := s.modMgmt fun m => { m with sticky := setSticky k m.sticky }
  if controllerSet s'.mgmt then sendCell .event (b8 s'.mgmt.params.ctrl) none (b8 (eventCode k) :: fields) s' else s'

/-- The current epoch as an event field. -/
def epochField (s : State) : List Byte := epochBytes s.sp.epoch

/-! ### Pruning (R52) -/

/-- The directions `cw` and `ccw` taken from a queued cell's outstanding set. -/
def dropDirs (cw ccw : Bool) (q : QCell) : QCell := { q with cw := q.cw && !cw, ccw := q.ccw && !ccw }
/-- The outstanding set is empty. -/
def QCell.done (q : QCell) : Bool := !q.cw && !q.ccw
/-- The cells of a queue that stay. -/
def pruneKeep (cw ccw : Bool) (q : List QCell) : List QCell :=
  (q.map (dropDirs cw ccw)).filter fun x => !x.done
/-- The cells of a queue that are freed without ever having been sent. -/
def pruneUnsent (cw ccw : Bool) (q : List QCell) : Nat :=
  ((q.map (dropDirs cw ccw)).filter fun x => x.done && !x.sent).length

/-- R52: directions leave the insertion set. -/
def prune (cw ccw : Bool) (s : State) : State :=
  let before := queuedCells s.cells
  let s' := s.modCells fun c =>
    let qs := c.queues.map (pruneKeep cw ccw)
    { c with
      queues := qs
      free := c.free + (before - (qs.urgent.length + qs.talk.length + qs.reply.length + qs.event.length))
      undeliverable :=
        { urgent := satAdd c.undeliverable.urgent (pruneUnsent cw ccw c.queues.urgent)
          talk := satAdd c.undeliverable.talk (pruneUnsent cw ccw c.queues.talk)
          reply := satAdd c.undeliverable.reply (pruneUnsent cw ccw c.queues.reply)
          event := satAdd c.undeliverable.event (pruneUnsent cw ccw c.queues.event) } }
  if queuedCells s'.cells < before then bufferReturned s' else s'

/-! ### The slot schedule (R51, R54) -/

/-- The direction is outstanding for the cell. -/
def QCell.has (q : QCell) : Dir → Bool
  | .cw => q.cw
  | .ccw => q.ccw
/-- R51: the cell has been sent in direction `d`. -/
def QCell.sentIn (d : Dir) (q : QCell) : QCell :=
  match d with
  | .cw => { q with cw := false, sent := true }
  | .ccw => { q with ccw := false, sent := true }
/-- The oldest cell of a queue with `d` outstanding, and the queue after it is sent in `d`. -/
def takeOldest (d : Dir) : List QCell → Option (Cell × List QCell)
  | [] => none
  | q :: rest =>
    if q.has d then some (q.cell, if (q.sentIn d).done then rest else q.sentIn d :: rest)
    else (takeOldest d rest).map fun r => (r.1, q :: r.2)

/-- The class of a schedule entry. -/
def schedAt (c : CellEngine) (i : Nat) : CellClass := c.sched[(⟨i % 32, Nat.mod_lt _ (by decide)⟩ : Fin 32)]
/-- A direction's schedule index. -/
def schedIndex (c : CellEngine) : Dir → Nat
  | .cw => c.cwIndex
  | .ccw => c.ccwIndex
/-- A direction's schedule index set. -/
def setSchedIndex (d : Dir) (i : Nat) (c : CellEngine) : CellEngine :=
  match d with
  | .cw => { c with cwIndex := i }
  | .ccw => { c with ccwIndex := i }

/-- The first of `fuel` entries from `i` on, round the entries in use, whose class holds a cell with `d` outstanding:
the entry, the cell, and the queue after it is sent. -/
def findWinner (c : CellEngine) (d : Dir) (i : Nat) : Nat → Option (Nat × Cell × List QCell)
  | 0 => none
  | fuel + 1 =>
    match takeOldest d (c.queues.get (schedAt c i)) with
    | some (cell, q) => some (i, cell, q)
    | none => findWinner c d (if i + 1 ≥ c.schedLen then 0 else i + 1) fuel

/-- R54: a free cell slot is offered in direction `d`; the cell that fills it, if any. -/
def grant (d : Dir) (s : State) : State × Option Cell :=
  match findWinner s.cells d (schedIndex s.cells d) s.cells.schedLen with
  | none => (s, none)
  | some (i, cell, q) =>
    let k := schedAt s.cells i
    let freed := (s.cells.queues.get k).length - q.length
    let s' := s.modCells fun c =>
      setSchedIndex d (if i + 1 ≥ c.schedLen then 0 else i + 1)
        { c with queues := c.queues.mod k (fun _ => q), free := c.free + freed }
    (if freed = 0 then s' else bufferReturned s', some cell)

/-! ### Roles recomputed (R12, R14, R24) -/

/-- R12: a port whose output stops being FORWARDED discards its forwarding buffer. -/
def dropBuffer (old : Trunk) (p : Port) (t : Trunk) : Trunk :=
  if content old p == .forwarded && content t p != .forwarded then modPort p (fun x => { x with buffer := none }) t
  else t

/-- R12, R14: the roles are recomputed after a change from the Trunk Interface state `old`: buffers of outputs that
stop being FORWARDED are discarded, and directions that leave the insertion set are pruned. -/
def rolesChanged (old : Trunk) (s : State) : State :=
  let s' := s.modTrunk fun t => dropBuffer old .west (dropBuffer old .east t)
  let cw := inserts old .cw && !inserts s'.trunk .cw
  let ccw := inserts old .ccw && !inserts s'.trunk .ccw
  if cw || ccw then prune cw ccw s' else s'

/-- R24: LINK_CHANGE of a port, or none for a change of ring mode. -/
def reportLinkChange (p : Option Port) (s : State) : State :=
  let t := s.trunk
  report .linkChange
    [match p with | none => 0xFF | some p => portCode p, lockCode t.east.lock, lockCode t.west.lock,
      contentCode (content t .east), contentCode (content t .west), roleCode (roleOf t)] s

/-- R7: an input has moved from the Trunk Interface state `old`; reaching or leaving LOCKED recomputes the roles and is
reported. -/
def lockMoved (old : Trunk) (p : Port) (s : State) : State :=
  if isLocked old p == isLocked s.trunk p then s else reportLinkChange (some p) (rolesChanged old s)

/-! ### Keys and lists -/

/-- Where key `k` of map `m` stands in the key tables (R129). -/
def keyIx (m : MapId) (k : KeyId) : Fin 256 := ⟨m.val * 32 + k.val, by omega⟩

/-- The first index below `n` at which `p` holds. -/
def firstFin {n : Nat} (p : Fin n → Bool) : Option (Fin n) := (List.finRange n).find? p

/-- `f` applied for every index below `n`, in ascending order. -/
def forFin {α : Type} (n : Nat) (f : Fin n → α → α) (a : α) : α := (List.finRange n).foldl (fun acc i => f i acc) a

end Sys2Proof.Machine
end

