-- ==== Sys2Proof/Machine/Router.lean ====
section
/-! DEFINITION. The Feed Router (04_feed_routing.md): takes, protection, application at switch points, ROUTE writes, and
the values delivered in a sample period. -/

namespace Sys2Proof.Machine

open Sys2Proof

/-- One route entry changed. -/
def modRoute (d : DestId) (f : RouteEntry → RouteEntry) (s : State) : State :=
  s.modRouter fun r => { r with routes := vmod r.routes d f }

/-! ### Takes (R67 to R69) -/

/-- The router's answer to a take: the code, the failing pair, the pendings replaced, the target as held. -/
structure TakeAnswer where
  code : Code
  pair : Option Nat
  replaced : Nat
  target : Option Target
  deriving DecidableEq, Repr

/-- R72: the code with which a destination's protection refuses a take by a requester; none allows it. -/
def takeRefusal (p : Protection) (requester : Byte) : Option Code :=
  match p with
  | .free => none
  | .protectedBy o => if o = requester then none else some .protectedBy
  | .lockedBy _ => some .protectedBy
  | .airlocked => some .locked

/-- What the four tests of R68 make of one pair. -/
inductive PairVerdict where
  | pass (d : DestId) (x : Source)
  | fail (c : Code)
  | guarded (c : Code) (d : DestId)
  deriving DecidableEq, Repr

/-- R68: the tests of one pair, in order; `seen` holds the destinations of the earlier pairs. -/
def judgePair (r : Router) (requester : Byte) (seen : List DestId) (pair : Byte × Half) : PairVerdict :=
  match asFin 64 pair.1.toNat with
  | none => .fail .range
  | some d =>
    match readSource pair.2 with
    | none => .fail .invalid
    | some x =>
      if d ∈ seen then .fail .invalid
      else
        match takeRefusal r.routes[d].prot requester with
        | some c => .guarded c d
        | none => .pass d x

/-- What the tests of R68 make of a whole request: the pairs accepted, or the first failing pair with its index. -/
inductive TakeVerdict where
  | pass (pairs : List (DestId × Source))
  | fail (c : Code) (pair : Nat) (guarded : Option DestId)
  deriving DecidableEq, Repr

/-- R68: the pairs are tested in the order given; `acc` holds the pairs passed so far, newest first. -/
def judgePairs (r : Router) (requester : Byte) (acc : List (DestId × Source)) : List (Byte × Half) → TakeVerdict
  | [] => .pass acc.reverse
  | p :: rest =>
    match judgePair r requester (acc.map (·.1)) p with
    | .fail c => .fail c acc.length none
    | .guarded c d => .fail c acc.length (some d)
    | .pass d x => judgePairs r requester ((d, x) :: acc) rest

/-- R68: a refusal by protection is recorded. -/
def recordRefusal (d : DestId) (requester : Byte) (s : State) : State :=
  s.modRouter fun r => { r with lastRefusal := some { dest := d, requester := requester, epoch := s.sp.epoch } }

/-- R69: one accepted pair sets the pending part of its destination. -/
def setPending (requester : Byte) (t : Target) (pair : DestId × Source) (s : State) : State :=
  modRoute pair.1 (fun e => { e with pending := some { source := pair.2, target := t, requester := requester } }) s

/-- How many of the destinations hold a pending part (R69). -/
def countPending (r : Router) (pairs : List (DestId × Source)) : Nat :=
  (pairs.filter fun p => r.routes[p.1].pending.isSome).length

/-- R69: an accepted take. -/
def acceptTake (requester : Byte) (pairs : List (DestId × Source)) (t : Target) (s : State) : State × TakeAnswer :=
  let late := isLate s.sp.epoch t
  let held := heldTarget s.sp.epoch t
  let replaced := countPending s.router pairs
  let s1 := pairs.foldl (fun acc p => setPending requester held p acc) s
  let s2 := if late then report .takeLate ([requester] ++ targetBytes t ++ epochField s1) s1 else s1
  (s2, { code := if late then .late else if 0 < replaced then .replaced else .ok, pair := none,
         replaced := replaced, target := some held })

/-- An answer that refuses a take. -/
def refuseTake (c : Code) (pair : Option Nat) : TakeAnswer :=
  { code := c, pair := pair, replaced := 0, target := none }

/-- R67 to R69: a take of these pairs for this target by this requester. -/
def routerTake (requester : Byte) (pairs : List (Byte × Half)) (t : Target) (s : State) : State × TakeAnswer :=
  match judgePairs s.router requester [] pairs with
  | .pass ps => acceptTake requester ps t s
  | .fail c i none => (s, refuseTake c (some i))
  | .fail c i (some d) => (recordRefusal d requester s, refuseTake c (some i))

/-- R67: a TAKE request; a pair count of 0 or above 8, a target mode that is neither, or fewer pairs than counted is
refused INVALID and names no pair. Pairs beyond the count are ignored (DESIGN CHOICE, log 55). -/
def takeRequest (requester : Byte) (m : TakeMsg) (s : State) : State × TakeAnswer :=
  let n := m.count.toNat
  match readTarget m.mode m.epoch with
  | none => (s, refuseTake .invalid none)
  | some t =>
    if n = 0 || 8 < n || m.pairs.length < n then (s, refuseTake .invalid none)
    else routerTake requester (m.pairs.take n) t s

/-! ### Switch point (R70) -/

/-- R70: a route entry at a switch point of epoch `e`. -/
def applyPending (e : Epoch) (x : RouteEntry) : RouteEntry :=
  match x.pending with
  | some p => if reached e p.target then { x with active := p.source, pending := none } else x
  | none => x

/-- R70: every route entry at a switch point of epoch `e`. -/
def routerSwitchPoint (e : Epoch) (s : State) : State :=
  s.modRouter fun r => { r with routes := vmap (applyPending e) r.routes }

/-! ### Protection (R72 to R75) -/

/-- The owner of a destination, when it has one. -/
def ownerOf : Protection → Option Byte
  | .protectedBy o => some o
  | .lockedBy o => some o
  | _ => none

/-- R73, R74, R75: the code with which PROTECT, RELEASE and AIRLOCK are refused because another requester owns the
destination, or it is AIRLOCKED; none lets the request act. `again` lets an AIRLOCKED destination pass. -/
def protectRefusal (again : Bool) (p : Protection) (requester : Byte) : Option Code :=
  match p with
  | .free => none
  | .airlocked => if again then none else some .locked
  | .protectedBy o | .lockedBy o => if o = requester then none else some .protectedBy

/-- R73: PROTECTED keeps the owner's own pending part alone; LOCKED keeps none. -/
def protectEntry (lock : Bool) (requester : Byte) (e : RouteEntry) : RouteEntry :=
  { e with
    prot := if lock then .lockedBy requester else .protectedBy requester
    pending := if lock then none else e.pending.filter fun p => p.requester == requester }

/-- R72: the router's answer to a protection request: a code and the destination's protection as it stands after the
request, whether the request was accepted or refused; none where there is no such destination. -/
structure ProtectAnswer where
  code : Code
  prot : Option Protection
  deriving DecidableEq, Repr

/-- R72: an answer with the protection of `d` as it stands in `s`, the state after the request. -/
def answerProtection (d : DestId) (c : Code) (s : State) : State × ProtectAnswer :=
  (s, { code := c, prot := some s.router.routes[d].prot })

/-- A protection request on a destination: refused and recorded, or acting by `f`. -/
def protectRequest (again : Bool) (requester : Byte) (d : DestId) (f : RouteEntry → RouteEntry) (s : State) :
    State × ProtectAnswer :=
  match protectRefusal again s.router.routes[d].prot requester with
  | some c => answerProtection d c (recordRefusal d requester s)
  | none => answerProtection d .ok (modRoute d f s)

/-- R72: the destination of a protection request: of 64 or more it is refused RANGE, and there is no protection to
answer. -/
def onDestination (dest : Byte) (act : DestId → State × ProtectAnswer) (s : State) : State × ProtectAnswer :=
  match asFin 64 dest.toNat with
  | none => (s, { code := .range, prot := none })
  | some d => act d

/-- R73: PROTECT. A destination of 64 or more is refused RANGE before the mode is judged; R72 and R73 give no order
(DESIGN CHOICE, log 48). -/
def routerProtect (requester dest mode : Byte) (s : State) : State × ProtectAnswer :=
  onDestination dest (fun d =>
    if 1 < mode.toNat then answerProtection d .invalid s
    else protectRequest false requester d (protectEntry (mode == 1) requester) s) s

/-- R74: RELEASE. -/
def routerRelease (requester dest : Byte) (s : State) : State × ProtectAnswer :=
  onDestination dest (fun d => protectRequest false requester d (fun e => { e with prot := .free }) s) s

/-- R75: AIRLOCK. -/
def routerAirlock (requester dest : Byte) (s : State) : State × ProtectAnswer :=
  onDestination dest (fun d =>
    protectRequest true requester d (fun e => { e with prot := .airlocked, pending := none }) s) s

/-! ### ROUTE writes (R65) -/

/-- R62: another insert entry than `d` names the slot. -/
def slotTaken (r : Router) (d : DestId) (t : SlotId) : Bool :=
  (List.finRange 64).any fun i => i != d && 32 ≤ i.val && r.routes[i].slot == some t

/-- R65: a ROUTE entry is judged and its insert slot stored. -/
def writeRoute (index : Nat) (entry : List Byte) (s : State) : State × Code :=
  match asFin 64 index with
  | none => (s, .range)
  | some d =>
    if d.val < 32 then (if byteAt entry 0 = 0xFF then (s, .ok) else (s, .invalid))
    else
      match readSlotOpt (byteAt entry 0) with
      | none => (s, .invalid)
      | some none => (modRoute d (fun e => { e with slot := none }) s, .ok)
      | some (some t) =>
        if slotTaken s.router d t then (s, .duplicateSlot)
        else (modRoute d (fun e => { e with slot := some t }) s, .ok)

/-- R64: every collision flag of an insert entry is cleared. -/
def clearCollisions (s : State) : State :=
  s.modRouter fun r => { r with routes := vmap (fun e => { e with collision := false }) r.routes }

/-! ### The values of a sample period (R15, R59, R61, R62) -/

/-- R15: the value of a slot from its CW copy (read on West) and its CCW copy (read on East); none is absent. -/
def slotValue (t : Trunk) (n : SlotId) : Option Sample :=
  let copyOf (c : Option (Vector WireSlot 128)) : Option Sample :=
    match c with
    | none => none
    | some v => if slotValid v[n] then some v[n].sample else none
  match copyOf t.west.copy with
  | some x => some x
  | none => copyOf t.east.copy

/-- The value of a slot wherever it is used: 0 when absent. -/
def slotSample (t : Trunk) (n : SlotId) : Sample := (slotValue t n).getD 0

/-- R59: the value of a source in the period, from the TDM inputs, the slots read and the mix results. -/
def sourceValue (t : Trunk) (tdm : Vector Sample 32) (results : Vector Sample 24) : Source → Sample
  | .silence => 0
  | .tdm n => tdm[n]
  | .slot n => slotSample t n
  | .mix n => results[n]

/-- R61: what the local outputs deliver, from the active sources at the start of the period. -/
def deliverLocal (start : PeriodStart) (value : Source → Sample) : Vector Sample 32 :=
  vof 32 fun n => value start.routes[(⟨n.val, by omega⟩ : DestId)].active

/-- R62: what the insert entries insert in the frames of the period. -/
def deliverInserts (start : PeriodStart) (value : Source → Sample) : Vector (Option (SlotId × Sample)) 32 :=
  vof 32 fun n =>
    let e := start.routes[(⟨n.val + 32, by omega⟩ : DestId)]
    match e.slot with
    | none => none
    | some t => if e.active = .silence then none else some (t, value e.active)

end Sys2Proof.Machine
end

