-- ==== Sys2Proof/Machine/Talk.lean ====
section
/-! DEFINITION. The Talk Authority (05_talk_authority_and_conferences.md): origin entries, admission, replies, mirrors
and leases. -/

namespace Sys2Proof.Machine

open Sys2Proof

/-! ### Lists and authority (R80, R81, R90) -/

/-- A talker list. -/
def listOf (t : TalkAuthority) : ListId → List Talker
  | .direct m => t.direct[m]
  | .conf c => t.confs[c].list

/-- A talker list changed. -/
def modList (l : ListId) (f : List Talker → List Talker) (s : State) : State :=
  s.modTalk fun t =>
    match l with
    | .direct m => { t with direct := vmod t.direct m f }
    | .conf c => { t with confs := vmod t.confs c fun x => { x with list := f x.list } }

/-- R80: the point's output, the lowest-numbered mix output of the node that carries the id. -/
def pointOutput (m : MixEngine) (p : PointId) : Option MixId := firstFin fun i => m.recs[i].point == some p

/-- R80, R84: the list of a target when this node is its authority. -/
def authorityList (s : State) : TalkTarget → Option ListId
  | .point p => (pointOutput s.mix p).map .direct
  | .conf c => if s.talk.confs[c].home then some (.conf c) else none

/-- R90: a talker is known by its node and origin index. -/
def isTalker (node : Byte) (idx : OriginId) (t : Talker) : Bool := t.node == node && t.origin == idx

/-- A list without a talker. -/
def dropTalker (node : Byte) (idx : OriginId) (l : List Talker) : List Talker := l.filter fun t => !isTalker node idx t

/-- The lease and the refresh interval (R83, R99). -/
def refreshInterval (lease : Nat) : Nat := max 1 (lease / 4)

/-! ### Cells and replies (R84, R86, R92, R93) -/

/-- R93: CONF_ON for a talker of conference `c`. -/
def announceOn (c : ConfId) (t : Talker) (s : State) : State :=
  sendCell .confOn 63 none
    ([b8 c.val, t.node, b8 t.origin.val] ++ pointBytes t.point ++ [b8 t.slot.val, b8 t.prio.val, b8 t.lease]) s

/-- R93: CONF_OFF for a talker of conference `c`. -/
def announceOff (c : ConfId) (node : Byte) (idx : OriginId) (s : State) : State :=
  sendCell .confOff 63 none [b8 c.val, node, b8 idx.val] s

/-- R93: a list of a conference is announced, a direct list is not. -/
def announceListOn (l : ListId) (t : Talker) (s : State) : State :=
  match l with
  | .direct _ => s
  | .conf c => announceOn c t s
/-- R93, the removal. -/
def announceListOff (l : ListId) (node : Byte) (idx : OriginId) (s : State) : State :=
  match l with
  | .direct _ => s
  | .conf c => announceOff c node idx s

/-- A TALK_OFF cell (R87, R86). -/
def sendTalkOff (target : TalkTarget) (idx : OriginId) (s : State) : State :=
  sendCell .talkOff 63 none (talkTargetBytes target ++ [b8 idx.val]) s

/-- The outcome of a talk (R86). -/
inductive TalkOutcome where
  | granted | denied | displaced
  deriving DecidableEq, Repr

/-- The code of an outcome (R209). -/
def outcomeByte : TalkOutcome → Byte | .granted => 0 | .denied => 1 | .displaced => 2

/-- One origin entry changed. -/
def modOrigin (idx : OriginId) (f : OriginEntry → OriginEntry) (s : State) : State :=
  s.modTalk fun t => { t with origins := vmod t.origins idx (Option.map f) }

/-- An entry that still asks: REQUESTED, GRANTED or NO_ANSWER (R85, R86). -/
def stillAsks : OriginState → Bool
  | .requested | .granted | .noAnswer => true
  | .denied | .displaced => false

/-- R86: an entry takes an outcome. -/
def takeOutcome (o : TalkOutcome) (e : OriginEntry) : OriginEntry :=
  match o with
  | .granted => { e with state := .granted, unanswered := 0 }
  | .denied => { e with state := .denied }
  | .displaced => { e with state := .displaced }

/-- R86: an outcome for the entry at `idx`; a GRANTED that no live talk wants is answered with TALK_OFF. -/
def outcomeAt (target : TalkTarget) (idx : OriginId) (o : TalkOutcome) (s : State) : State :=
  let unwanted := if o = .granted then sendTalkOff target idx s else s
  match s.talk.origins[idx] with
  | some e => if e.target = target && stillAsks e.state then modOrigin idx (takeOutcome o) s else unwanted
  | none => unwanted

/-- R92, R89: the outcome goes to the talker's node, as a TALK_REPLY cell or internally. -/
def answerTalk (node : Byte) (idx : OriginId) (target : TalkTarget) (o : TalkOutcome) (tag : Option Byte)
    (s : State) : State :=
  if node = s.trunk.addr then outcomeAt target idx o s
  else sendCell .talkReply node tag (talkTargetBytes target ++ [b8 idx.val, outcomeByte o]) s

/-! ### Admission (R92) -/

/-- What admission makes of a list. -/
inductive Admission where
  | renewed (l : List Talker)
  | appended (l : List Talker)
  | displaced (victim : Talker) (l : List Talker)
  | denied
  deriving DecidableEq, Repr

/-- R92: the lowest priority, and among those the newest. -/
def victimOf (l : List Talker) : Option Talker :=
  l.foldl (fun best x =>
    match best with
    | none => some x
    | some v => if x.prio ≤ v.prio then some x else some v) none

/-- A present talker takes the values of `t`, in its place. -/
def renewIn (t : Talker) (l : List Talker) : List Talker := l.map fun x => if isTalker t.node t.origin x then t else x

/-- R92: the first case that holds: present, room, full. -/
def admitTalker (t : Talker) (l : List Talker) : Admission :=
  if l.any (isTalker t.node t.origin) then .renewed (renewIn t l)
  else if l.length < 8 then .appended (l ++ [t])
  else
    match victimOf l with
    | some v => if v.prio < t.prio then .displaced v (dropTalker v.node v.origin l ++ [t]) else .denied
    | none => .denied

/-- R92, R93: a TALK_ON that passed the tests meets the list of its target. `tag` none is an internal TALK_ON. Where
nobody is displaced R93 gives no order; CONF_ON is created before the GRANTED reply there too (DESIGN CHOICE, log 49). -/
def admitTo (l : ListId) (target : TalkTarget) (t : Talker) (tag : Option Byte) (s : State) : State :=
  let grantIt := answerTalk t.node t.origin target .granted tag
  match admitTalker t (listOf s.talk l) with
  | .renewed x => grantIt (announceListOn l t (modList l (fun _ => x) s))
  | .appended x => grantIt (announceListOn l t (modList l (fun _ => x) s))
  | .displaced v x =>
    let s1 := modList l (fun _ => x) s
    let s2 := announceListOn l t (announceListOff l v.node v.origin s1)
    grantIt (answerTalk v.node v.origin target .displaced tag s2)
  | .denied => answerTalk t.node t.origin target .denied tag s

/-- R91: the authority test; a node that is not the authority ignores the TALK_ON. -/
def handleTalkOn (target : TalkTarget) (t : Talker) (tag : Option Byte) (s : State) : State :=
  match authorityList s target with
  | none => s
  | some l => admitTo l target t tag s

/-- R94: at the authority a TALK_OFF removes the talker; a removal from a conference is announced. -/
def handleTalkOff (target : TalkTarget) (node : Byte) (idx : OriginId) (s : State) : State :=
  match authorityList s target with
  | none => s
  | some l =>
    if (listOf s.talk l).any (isTalker node idx) then
      announceListOff l node idx (modList l (dropTalker node idx) s)
    else s

/-! ### Received talk cells (R86, R91, R94, R97, R98) -/

/-- R91: the target and the talker of a TALK_ON whose fields are in range. -/
def judgeTalkOn (src : Byte) (lease : Nat) (m : TalkOnMsg) : Option (TalkTarget × Talker) := do
  let target ← readTalkTarget m.kind m.id
  let idx ← asFin 64 m.origin.toNat
  let slot ← asFin 128 m.slot.toNat
  let prio ← asFin 4 m.prio.toNat
  let point ← readPointOpt m.point
  return (target, { node := src, origin := idx, point := point, slot := slot, prio := prio, lease := lease })

/-- R91, R92: a TALK_ON cell. -/
def takeTalkOn (src tag : Byte) (m : TalkOnMsg) (s : State) : State :=
  match judgeTalkOn src s.mgmt.params.lease m with
  | none => s
  | some (target, t) => handleTalkOn target t (some tag) s

/-- R94: a TALK_OFF cell. -/
def takeTalkOff (src : Byte) (m : TalkOffMsg) (s : State) : State :=
  match readTalkTarget m.kind m.id, asFin 64 m.origin.toNat with
  | some target, some idx => handleTalkOff target src idx s
  | _, _ => s

/-- An outcome byte (R86). -/
def readOutcome (b : Byte) : Option TalkOutcome :=
  if b = 0 then some .granted else if b = 1 then some .denied else if b = 2 then some .displaced else none

/-- R86: a TALK_REPLY cell. -/
def takeTalkReply (m : TalkReplyMsg) (s : State) : State :=
  match readTalkTarget m.kind m.id, asFin 64 m.origin.toNat, readOutcome m.outcome with
  | some target, some idx, some o => outcomeAt target idx o s
  | _, _, _ => s

/-- R97: the smallest lease, and among equals the oldest. -/
def staleOf (l : List Talker) : Option Talker :=
  l.foldl (fun best x =>
    match best with
    | none => some x
    | some v => if x.lease < v.lease then some x else some v) none

/-- R97: a mirror takes a CONF_ON: present, room, full. -/
def mirrorOn (t : Talker) (l : List Talker) : List Talker :=
  if l.any (isTalker t.node t.origin) then renewIn t l
  else if l.length < 8 then l ++ [t]
  else
    match staleOf l with
    | some v => dropTalker v.node v.origin l ++ [t]
    | none => l ++ [t]

/-- R97: the conference and the talker of a CONF_ON whose fields are in range. -/
def judgeConfOn (m : ConfOnMsg) : Option (ConfId × Talker) := do
  let c ← asFin 64 m.conf.toNat
  let idx ← asFin 64 m.origin.toNat
  let slot ← asFin 128 m.slot.toNat
  let prio ← asFin 4 m.prio.toNat
  let point ← readPointOpt m.point
  if sourceOk m.node && m.lease != 0 then
    return (c, { node := m.node, origin := idx, point := point, slot := slot, prio := prio, lease := m.lease.toNat })
  else none

/-- R97: a CONF_ON cell; a home ignores it. -/
def takeConfOn (m : ConfOnMsg) (s : State) : State :=
  match judgeConfOn m with
  | none => s
  | some (c, t) => if s.talk.confs[c].home then s else modList (.conf c) (mirrorOn t) s

/-- R98: a CONF_OFF cell; a home ignores it. -/
def takeConfOff (m : ConfOffMsg) (s : State) : State :=
  match asFin 64 m.conf.toNat, asFin 64 m.origin.toNat with
  | some c, some idx =>
    if !sourceOk m.node || s.talk.confs[c].home then s else modList (.conf c) (dropTalker m.node idx) s
  | _, _ => s

/-! ### Origin entries (R82 to R89) -/

/-- The entry that a key holds under a sub-index. -/
def findOrigin (t : TalkAuthority) (map : MapId) (key : KeyId) (sub : Option (Fin 4)) : Option OriginId :=
  firstFin fun i =>
    match t.origins[i] with
    | some e => e.map == map && e.key == key && e.sub == sub
    | none => false

/-- The entries of a key. -/
def keyOrigins (t : TalkAuthority) (map : MapId) (key : KeyId) : List OriginEntry :=
  t.origins.toList.filterMap fun o => o.filter fun e => e.map == map && e.key == key

/-- The payload of the TALK_ON of an entry (R84, R209). -/
def talkOnBytes (idx : OriginId) (e : OriginEntry) : List Byte :=
  talkTargetBytes e.target ++ [b8 idx.val] ++ pointBytes e.point ++ [b8 e.slot.val, b8 e.prio.val]

/-- An entry takes talker point, trunk slot and priority from its key map (R82). -/
def refreshFromMap (k : KeyMap) (e : OriginEntry) : OriginEntry :=
  { e with point := k.point, slot := k.slot, prio := k.prio }

/-- R84, R89: an entry is sent to its authority, by cell or internally. -/
def sendOrigin (idx : OriginId) (s : State) : State :=
  match s.talk.origins[idx] with
  | none => s
  | some e0 =>
    let e := refreshFromMap s.panel.maps[e0.map] e0
    let s1 := modOrigin idx (fun _ => e) s
    match authorityList s1 e.target with
    | some l =>
      admitTo l e.target
        { node := s.trunk.addr, origin := idx, point := e.point, slot := e.slot, prio := e.prio,
          lease := s.mgmt.params.lease } none s1
    | none => sendCell .talkOn 63 none (talkOnBytes idx e) s1

/-- R82: the first free index at or after the allocation pointer, wrapping from 63 to 0. -/
def freeOrigin (t : TalkAuthority) : Option OriginId :=
  ((List.finRange 64).map fun k => t.pointer + k).find? fun i => t.origins[i].isNone

/-- R83: an origin entry is created and sent; false when the table is full. -/
def createOrigin (map : MapId) (key : KeyId) (sub : Option (Fin 4)) (target : TalkTarget) (s : State) :
    State × Bool :=
  match freeOrigin s.talk with
  | none => (s, false)
  | some i =>
    let k := s.panel.maps[map]
    let e : OriginEntry :=
      { map := map, key := key, sub := sub, target := target, point := k.point, slot := k.slot, prio := k.prio,
        state := .requested, countdown := refreshInterval s.mgmt.params.lease, unanswered := 0 }
    let s1 := s.modTalk fun t => { t with origins := t.origins.set i (some e), pointer := i + 1 }
    (sendOrigin i s1, true)

/-- R87: an entry is ended: it leaves the table, and its talker is removed, internally or by TALK_OFF. -/
def endOrigin (idx : OriginId) (s : State) : State :=
  match s.talk.origins[idx] with
  | none => s
  | some e =>
    let s1 := s.modTalk fun t => { t with origins := t.origins.set idx none }
    match authorityList s1 e.target with
    | some _ => handleTalkOff e.target s1.trunk.addr idx s1
    | none => sendTalkOff e.target idx s1

/-- The entry of a key under a sub-index is ended, if there is one. -/
def endKeyOrigin (map : MapId) (key : KeyId) (sub : Option (Fin 4)) (s : State) : State :=
  match findOrigin s.talk map key sub with
  | none => s
  | some i => endOrigin i s

/-- Every entry of a key is ended, in ascending sub-index (R134). -/
def endKeyOrigins (map : MapId) (key : KeyId) (s : State) : State :=
  forFin 4 (fun k => endKeyOrigin map key (some k)) (endKeyOrigin map key none s)

/-- R88: every entry of a key map is ended, in ascending origin index. -/
def endMapOrigins (map : MapId) (s : State) : State :=
  forFin 64 (fun i acc =>
    match acc.talk.origins[i] with
    | some e => if e.map = map then endOrigin i acc else acc
    | none => acc) s

/-- R85: what a resend does to an entry before it is sent. -/
def countResend (r : Nat) (e : OriginEntry) : OriginEntry :=
  { e with
    countdown := r
    unanswered := if e.state = .noAnswer then 3 else min (e.unanswered + 1) 3
    state := if e.state = .noAnswer || 2 ≤ e.unanswered then .noAnswer else e.state }

/-- R85: an entry is resent. -/
def resendOrigin (idx : OriginId) (s : State) : State :=
  sendOrigin idx (modOrigin idx (countResend (refreshInterval s.mgmt.params.lease)) s)

/-- R85: an entry whose refresh countdown stands at 0 while it still asks. -/
def resendDue (t : TalkAuthority) (idx : OriginId) : Bool :=
  match t.origins[idx] with
  | some e => stillAsks e.state && e.countdown == 0
  | none => false

/-- R85: one entry at a switch point. -/
def refreshOrigin (idx : OriginId) (s : State) : State :=
  let s1 := modOrigin idx (fun e => if stillAsks e.state then { e with countdown := e.countdown - 1 } else e) s
  if resendDue s1.talk idx then resendOrigin idx s1 else s1

/-! ### Leases (R95, R96, R99) -/

/-- The target whose list it is, for the report of an expiry (R95). -/
def listTarget (s : State) : ListId → Option TalkTarget
  | .direct m => s.mix.recs[m].point.map .point
  | .conf c => some (.conf c)

/-- R95: the report of an expiry. -/
def reportExpired (l : ListId) (node : Byte) (idx : OriginId) (s : State) : State :=
  match listTarget s l with
  | none => s
  | some target => report .talkExpired (talkTargetBytes target ++ [node, b8 idx.val] ++ epochField s) s

/-- R95: an entry whose lease has reached 0 is removed; an authority announces and reports it, a mirror does not. R95 gives
CONF_OFF and TALK_EXPIRED of a home no order; CONF_OFF is created first (DESIGN CHOICE, log 7). -/
def expireTalker (l : ListId) (node : Byte) (idx : OriginId) (s : State) : State :=
  let s1 := modList l (dropTalker node idx) s
  match l with
  | .direct _ => reportExpired l node idx s1
  | .conf c => if s1.talk.confs[c].home then reportExpired l node idx (announceOff c node idx s1) else s1

/-- R95: one list at a switch point: every lease falls by one, then each entry at 0 expires, oldest first. -/
def countdownList (l : ListId) (s : State) : State :=
  let s1 := modList l (fun x => x.map fun t => { t with lease := t.lease - 1 }) s
  ((listOf s1.talk l).filter fun t => t.lease == 0).foldl (fun acc t => expireTalker l t.node t.origin acc) s1

/-- R95: every list at a switch point, direct lists before conferences (log 6). -/
def countdownLeases (s : State) : State :=
  forFin 64 (fun c => countdownList (.conf c)) (forFin 24 (fun m => countdownList (.direct m)) s)

/-- R85: the origin entries that `p` names at a switch point, in ascending index (log 6). -/
def refreshOrigins (p : OriginId → Bool) (s : State) : State :=
  forFin 64 (fun i acc => if p i then refreshOrigin i acc else acc) s

/-- R96: the refresh of this origin entry is taken before the lease countdown of the list it meets: it is served
internally, and the choice, which the rule leaves open for each talker entry, is a free value (log 5). -/
def refreshedEarly (s : State) (idx : OriginId) : Bool :=
  match s.talk.origins[idx] with
  | some e => (authorityList s e.target).isSome && Config.refreshFirst s.freeCount idx
  | none => false

/-- R96: the Talk Authority at a switch point: the refreshes that their choice puts before the lease countdowns, the
countdowns, and the other refreshes. An entry served by a cell meets no list of this node, and is refreshed after them
(log 6). -/
def talkSwitchPoint (s : State) : State :=
  let early := refreshedEarly s
  refreshOrigins (fun i => !early i) (countdownLeases (refreshOrigins early s.countChoice))

/-- R99: leases above `lease` fall to it. -/
def clampLeases (lease : Nat) (l : List Talker) : List Talker := l.map fun t => { t with lease := min t.lease lease }

/-- R99: a new lease clamps countdowns and leases. -/
def applyLease (lease : Nat) (s : State) : State :=
  s.modTalk fun t =>
    { t with
      origins := vmap (Option.map fun e => { e with countdown := min e.countdown (refreshInterval lease) }) t.origins
      direct := vmap (clampLeases lease) t.direct
      confs := vmap (fun c => { c with list := clampLeases lease c.list }) t.confs }

/-- R81: a CONF entry sets or clears the home flag and keeps the list. Its index is judged first (DESIGN CHOICE, log 48). -/
def writeConf (index : Nat) (entry : List Byte) (s : State) : State × Code :=
  match asFin 64 index with
  | none => (s, .range)
  | some c =>
    match readFlag (byteAt entry 0) with
    | none => (s, .invalid)
    | some b => (s.modTalk fun t => { t with confs := vmod t.confs c fun x => { x with home := b } }, .ok)

end Sys2Proof.Machine
end

