-- ==== Sys2Proof/Machine/Mix.lean ====
section
/-! DEFINITION. The Mix Engine (06_the_mix_engine.md): MIX writes, subscriptions, the contributing set, and the
arithmetic of a sample period. -/

namespace Sys2Proof.Machine

open Sys2Proof

/-- One mix record changed. -/
def modRec (m : MixId) (f : MixRec → MixRec) (s : State) : State := s.modMix fun x => { x with recs := vmod x.recs m f }

/-! ### Writes (R105, R106, R80) -/

/-- R106: g within dim and full; a LISTENER's g is full. A write that makes an IFB of a LISTENER and raises full too keeps
the g that stood, which is the old full: R106 keeps a g within the range, R115 leaves g at full (DESIGN CHOICE, log 57). -/
def clampGain (r : MixRec) (g : Nat) : Nat := if r.ifb then max r.dim (min r.full g) else r.full

/-- The subscriptions of a MIX entry; none when the count is above 4, an id is out of range or stands twice (R105). -/
def readSubs (entry : List Byte) : Option (List ConfId) :=
  let n := (byteAt entry 4).toNat
  if 4 < n then none
  else
    match (((entry.drop 5).take n).mapM fun b => asFin 64 b.toNat) with
    | none => none
    | some l => if l.Nodup then some l else none

/-- R105, R106: a MIX entry judged against the record it replaces, and stored with its clamps. -/
def readMix (old : MixRec) (entry : List Byte) : Option MixRec := do
  let ifb ← if byteAt entry 0 = 0 then some false else if byteAt entry 0 = 1 then some true else none
  let point ← readPointOpt (halfAt entry 1)
  let own ← readSlotOpt (byteAt entry 3)
  let subs ← readSubs entry
  let prog ← readSourceOpt (halfAt entry 13)
  let threshold := (byteAt entry 21).toNat
  if 4 < threshold then none
  else
    let full := min (halfAt entry 15).toNat 4096
    let dim := min (min (halfAt entry 17).toNat 4096) full
    let r : MixRec :=
      { old with
        ifb := ifb, point := point, own := own, subs := subs
        talkGain := min (halfAt entry 9).toNat 8191, listen := min (halfAt entry 11).toNat 8191
        prog := prog, full := full, dim := dim
        step := max 1 (min (halfAt entry 19).toNat 4096), threshold := threshold }
    return { r with g := clampGain r old.g }

/-- R80: the direct lists after output `m` changes its point to `p`: its own is emptied, and those of higher outputs
that carry `p`. -/
def pointMoved (m : MixId) (p : Option PointId) (s : State) : State :=
  s.modTalk fun t =>
    { t with
      direct := vof 24 fun j =>
        if j = m || (m < j && p.isSome && s.mix.recs[j].point == p) then [] else t.direct[j] }

/-- R105: a MIX entry. -/
def writeMix (index : Nat) (entry : List Byte) (s : State) : State × Code :=
  match asFin 24 index with
  | none => (s, .range)
  | some m =>
    match readMix s.mix.recs[m] entry with
    | none => (s, .invalid)
    | some r =>
      let s1 := if r.point = s.mix.recs[m].point then s else pointMoved m r.point s
      (modRec m (fun _ => r) s1, .ok)

/-- R107: a subscription is toggled; the answer is none when it is refused. -/
def toggleSub (m : MixId) (c : ConfId) (s : State) : State × Option ToggleDone :=
  let l := s.mix.recs[m].subs
  if c ∈ l then (modRec m (fun r => { r with subs := r.subs.erase c }) s, some .removed)
  else if l.length < 4 then (modRec m (fun r => { r with subs := r.subs ++ [c] }) s, some .added)
  else (s, none)

/-- R108: the knob sets the listen level. -/
def setKnob (m : MixId) (k : Byte) (s : State) : State := modRec m (fun r => { r with listen := k.toNat * 32 }) s

/-- R119: every clipped flag is cleared. -/
def clearClipped (s : State) : State :=
  s.modMix fun x => { x with recs := vmap (fun r => { r with clipped := false }) x.recs }

/-! ### The contributing set (R110 to R112) -/

/-- R110: the entries gathered for an output, in order. -/
def gathered (start : PeriodStart) (m : MixId) : List Talker :=
  start.direct[m] ++ start.recs[m].subs.flatMap fun c => start.confs[c].list

/-- R112: an entry joins the set, or raises the priority of the entry that names its slot. -/
def joinSet (acc : List Contrib) (t : Talker) : List Contrib :=
  if acc.any fun c => c.slot == t.slot then
    acc.map fun c => if c.slot = t.slot then { c with prio := max c.prio t.prio } else c
  else acc ++ [{ node := t.node, origin := t.origin, point := t.point, slot := t.slot, prio := t.prio }]

/-- R110 to R112: the contributing set of an output. -/
def contribSet (start : PeriodStart) (m : MixId) : List Contrib :=
  ((gathered start m).filter fun t => start.recs[m].own != some t.slot).foldl joinSet []

/-- R113: the active source of the insert entry that names a slot, as it stood at the start of the period. -/
def insertSource (start : PeriodStart) (t : SlotId) : Option Source :=
  (firstFin fun i : DestId => 32 ≤ i.val && start.routes[i].slot == some t).map fun i => start.routes[i].active

/-- R113: the sample of an entry of the set. -/
def talkSample (t : Trunk) (tdm : Vector Sample 32) (start : PeriodStart) (c : Contrib) : Sample :=
  if c.node = t.addr then
    match insertSource start c.slot with
    | some (.tdm n) => tdm[n]
    | some (.slot n) => slotSample t n
    | _ => 0
  else slotSample t c.slot

/-! ### Programme, ramp and arithmetic (R115 to R118) -/

/-- R115: an entry of the set interrupts the output. -/
def interrupted (r : MixRec) (set : List Contrib) : Bool := set.any fun c => r.threshold ≤ c.prio.val

/-- R115: g moves by one step toward the target. -/
def rampToward (target step g : Nat) : Nat := if target < g then max target (g - step) else min target (g + step)

/-- R115: g of a period from that of the period before, taken at its start; a LISTENER's is not stepped. -/
def rampGain (r : MixRec) (set : List Contrib) : Nat :=
  if r.ifb then rampToward (if interrupted r set then r.dim else r.full) r.step r.g else r.g

/-- R117: division by 4096, to the nearest integer, halves toward positive infinity. -/
def rnd (v : Int) : Int := (v + 2048) / 4096

/-- R116: the programme value. -/
def programme (t : Trunk) (tdm : Vector Sample 32) (start : PeriodStart) (r : MixRec) : Sample :=
  if r.ifb then
    match r.prog with
    | some (.tdm n) => tdm[n]
    | some (.slot n) => slotSample t n
    | some (.mix n) => start.recs[n].prev
    | _ => 0
  else 0

/-- R118: the largest and the smallest sample. -/
def sampleMax : Int := 8388607
def sampleMin : Int := -8388608

/-- R118: a value saturated into the sample range. -/
def saturate (y : Int) : Int := if sampleMax < y then sampleMax else if y < sampleMin then sampleMin else y

/-- R118: the accumulator of a period. -/
def accumulate (r : MixRec) (xs : List Sample) (p : Sample) : Int :=
  (xs.map fun x => rnd (x.toInt * r.talkGain)).sum + rnd (p.toInt * r.g)

/-- What a period makes of one output: the set, and the exact result before saturation. -/
structure MixPeriod where
  set : List Contrib
  exact : Int
  deriving DecidableEq, Repr

/-- R109 to R118: one output in a period, from what stood at its start; the g there is that after the step of R115. -/
def mixPeriod (t : Trunk) (tdm : Vector Sample 32) (start : PeriodStart) (m : MixId) : MixPeriod :=
  let r := start.recs[m]
  let set := contribSet start m
  let acc := accumulate r (set.map (talkSample t tdm start)) (programme t tdm start r)
  { set := set, exact := rnd (acc * r.listen) }

/-- R118: the sample delivered. -/
def mixSample (x : MixPeriod) : Sample := BitVec.ofInt 24 (saturate x.exact)
/-- R119: saturation changed the result. -/
def isClipped (x : MixPeriod) : Bool := saturate x.exact != x.exact

/-- R109, R119: the record after the period: the clipped flag and the previous result, also where an in-band reset of the
period has reset the record (log 34). -/
def afterPeriod (x : MixPeriod) (r : MixRec) : MixRec :=
  { r with clipped := r.clipped || isClipped x, prev := mixSample x }

/-- R119: CLIPPED is reported when the flag was clear. -/
def reportClipped (m : MixId) (x : MixPeriod) (wasClipped : Bool) (s : State) : State :=
  if isClipped x && !wasClipped then
    report .clipped ([b8 m.val] ++ epochField s ++ [if sampleMax < x.exact then 0 else 1]) s
  else s

end Sys2Proof.Machine
end

