-- ==== Sys2Proof/Machine/Lamp.lean ====
section
/-! DEFINITION. The Lamp Line Driver (09_lamp_line_drivers.md): carriers, generators, line outputs, fault sensing,
substitution, LINE and SUBST writes. -/

namespace Sys2Proof.Machine

open Sys2Proof

/-- One line changed. -/
def modLine (w : WireId) (f : LampLine → LampLine) (s : State) : State :=
  s.modLamp fun l => { l with lines := vmod l.lines w f }

/-! ### Carriers (R169, R170) -/

/-- The line of a lamp's link. -/
def linkOf (l : LampDriver) (j : LampId) : Option WireId := (l.links.find? fun x => x.1 == j).map (·.2)
/-- The line is the target of a link. -/
def isLinked (l : LampDriver) (w : WireId) : Bool := l.links.any fun x => x.2 == w

/-- R170: the carrier of a lamp: its link's line, or its own NORMAL line, or none. -/
def carrier (l : LampDriver) (j : LampId) : Option WireId :=
  match linkOf l j with
  | some w => some w
  | none =>
    let own : WireId := ⟨j.val, by omega⟩
    if l.lines[own].role = .normal then some own else none

/-- R170: the lamp that a line carries. -/
def carried (l : LampDriver) (w : WireId) : Option LampId := firstFin fun j => carrier l j == some w

/-! ### Generators (R172 to R178) -/

/-- R176: phase `p` of a cycle of `f` is an on-phase of the window `a`, `b`, each clamped to the cycle. -/
def onPhase (f a b p : Nat) : Bool :=
  let a := min a f
  let b := min b f
  if a < b then a ≤ p && p < b else if b < a then a ≤ p || p < b else false

/-- R174 to R178: the output of a generator in the present frame. FLASH is formed from the current epoch and the flash
cycle in force (R177). -/
def generatorOn (f : Nat) (epoch : Option Epoch) (count : Nat) (g : Generator) : Bool :=
  match g.drive with
  | .off => false
  | .steady => true
  | .dim _ => count < g.level * 12
  | .flash a b =>
    match epoch with
    | none => false
    | some e => onPhase f a b (e.toNat % f)
  | .pulse =>
    match g.pulse with
    | .waiting _ => false
    | .phase n => n.val < 2

/-- R172, R178: a drive is handed to a lamp's generator; a PULSE_TRAIN starts in WAITING with the current epoch. -/
def handGenerator (j : LampId) (d : Drive) (s : State) : State :=
  s.modLamp fun l =>
    { l with
      gens := vmod l.gens j fun g =>
        { g with drive := d, pulse := if d = .pulse then .waiting s.sp.epoch else g.pulse } }

/-- R178: the pulse state at a switch point of epoch `e`. -/
def stepPulse (e : Epoch) : PulseState → PulseState
  | .waiting r => if r = some e then .waiting r else .phase 0
  | .phase n => .phase (n + 1)

/-- R178: the generators at a switch point of epoch `e`. -/
def lampSwitchPoint (e : Epoch) (s : State) : State :=
  s.modLamp fun l =>
    { l with gens := vmap (fun g => if g.drive = .pulse then { g with pulse := stepPulse e g.pulse } else g) l.gens }

/-- R175: the level a generator loads at a period start. -/
def dimLevel : Drive → Nat
  | .dim n => n
  | _ => 0

/-! ### Line outputs (R179) -/

/-- R180, R184: the fault state lets the line be driven on in the present frame: it is not LATCHED, no retry-off mark of
an earlier frame stands, and no CLEAR of this frame found it off. -/
def faultLetsOn (x : LampLine) : Bool := x.fault != .latched && (!x.retryOff || x.tripped) && !x.heldOff

/-- R179: a line is driven on in the present frame. -/
def drivenOn (s : State) (w : WireId) : Bool :=
  match carried s.lamp w with
  | none => false
  | some j =>
    generatorOn s.mgmt.params.flash s.sp.epoch s.lamp.periodCount s.lamp.gens[j] &&
      faultLetsOn s.lamp.lines[w]

/-- R180: a line judged and tried again at a period start. -/
def judgePeriod (x : LampLine) : LampLine :=
  let clean := x.onSeen && !x.faultSeen && x.fault != .latched
  { x with
    retryOff := false, tripped := false, onSeen := false, faultSeen := false
    count := if clean then 0 else x.count
    fault := if clean then .ok else x.fault }

/-- R173, R175, R180: a period start, when that of the current frame is still to be taken. -/
def lampPeriodStart (s : State) : State :=
  if s.lamp.periodDue then
    s.modLamp fun l =>
      { l with
        periodDue := false
        gens := vmap (fun g => { g with level := dimLevel g.drive }) l.gens
        lines := vmap judgePeriod l.lines }
  else s

/-! ### Faults and substitution (R180 to R183) -/

/-- R182: a free spare: role SPARE, no link's target, not LATCHED; the lowest-numbered. -/
def freeSpare (l : LampDriver) : Option WireId :=
  firstFin fun w => l.lines[w].role == .spare && !isLinked l w && l.lines[w].fault != .latched

/-- R169: a lamp's link is replaced in place, or appended. -/
def setLink (j : LampId) (w : WireId) (links : List (LampId × WireId)) : List (LampId × WireId) :=
  if links.any fun x => x.1 == j then links.map fun x => if x.1 = j then (j, w) else x else links ++ [(j, w)]

/-- R182: a spare is taken for lamp `j` of the failed line `w`. -/
def installSpare (j : LampId) (w spare : WireId) (s : State) : State :=
  let s1 := s.modLamp fun l => { l with links := setLink j spare l.links }
  report .spareInstalled ([b8 j.val, b8 w.val, b8 spare.val, b8 s1.lamp.links.length] ++ epochField s1) s1

/-- R182: a failed substitution; reason NO_SPARE 0, TABLE_FULL 1. -/
def spareExhausted (j : LampId) (w : WireId) (reason : Byte) (s : State) : State :=
  report .spareExhausted ([b8 j.val, b8 w.val, reason] ++ epochField s) s

/-- R182: automatic substitution for lamp `j` of the latched line `w`. -/
def autoSpare (j : LampId) (w : WireId) (s : State) : State :=
  if s.lamp.lines[w].autoSpare then
    match freeSpare s.lamp with
    | none => spareExhausted j w 0 s
    | some spare =>
      if (linkOf s.lamp j).isNone && 8 ≤ s.lamp.links.length then spareExhausted j w 1 s else installSpare j w spare s
  else s

/-- R181: line `w`, carrying lamp `j`, enters LATCHED and is off from this frame (log 44). -/
def latchLine (j : LampId) (w : WireId) (s : State) : State :=
  let s1 := modLine w (fun x => { x with fault := .latched, retryOff := false, tripped := false }) s
  let x := s1.lamp.lines[w]
  autoSpare j w (report .lampFault ([b8 w.val, b8 j.val, faultModeCode x.mode, b8 x.count] ++ epochField s1) s1)

/-- R180, R181: a fault of a line that is driven on. The retry-off mark holds the line off for the rest of the period: the
frame of the fault keeps its output (`tripped`). -/
def faultOn (j : LampId) (w : WireId) (s : State) : State :=
  let s1 := modLine w (fun x =>
    { x with count := min (x.count + 1) 8, onSeen := true, faultSeen := true, retryOff := true, tripped := true }) s
  let x := s1.lamp.lines[w]
  if x.mode = .latch || 8 ≤ x.count then latchLine j w s1
  else modLine w (fun x => { x with fault := .retrying }) s1

/-- R180: a fault reading of a line; it is used in a frame in which the line is driven on. A line whose lamp a SUBST write
of the frame has moved carries nothing and is not read (R185, log 45). -/
def senseFault (w : WireId) (s : State) : State :=
  match carried s.lamp w with
  | none => s
  | some j => if drivenOn s w then faultOn j w s else s

/-- R183: the readings of a frame, in ascending line number, each against what those before it left. -/
def senseAll (reads : BitVec 48) (s : State) : State :=
  forFin 48 (fun w acc => if reads.getLsbD w.val then senseFault w acc else acc) s

/-- R180: the readings of the current frame, when they are still to be taken. -/
def takeFaultReads (reads : BitVec 48) (s : State) : State :=
  if s.lamp.senseDue then senseAll reads (s.modLamp fun l => { l with senseDue := false }) else s

/-- R184: a line returns to OK; one that its fault held off is driven on from the next frame. So is one that carries nothing
at the CLEAR and takes a lamp later in its frame (DESIGN CHOICE, log 56). -/
def clearFault (x : LampLine) : LampLine :=
  { x with fault := .ok, count := 0, retryOff := false, tripped := false, heldOff := !faultLetsOn x }

/-- R184: every line returns to OK. -/
def clearLampFaults (s : State) : State := s.modLamp fun l => { l with lines := vmap clearFault l.lines }

/-! ### Writes (R168, R171) -/

/-- R168: a LINE entry. Auto-spare is read as 0 no and 1 yes (DESIGN CHOICE, log 50). -/
def writeLine (index : Nat) (entry : List Byte) (s : State) : State × Code :=
  match asFin 48 index with
  | none => (s, .range)
  | some w =>
    match readFlag (byteAt entry 0), readFlag (byteAt entry 1), readFlag (byteAt entry 2) with
    | some role, some mode, some auto =>
      let role := if role then LineRole.spare else .normal
      if isLinked s.lamp w && role != s.lamp.lines[w].role then (s, .invalid)
      else
        (modLine w (fun x =>
          { x with role := role, mode := if mode then .latch else .retry, autoSpare := auto }) s, .ok)
    | _, _, _ => (s, .invalid)

/-- R171: a SUBST entry. -/
def writeSubst (index : Nat) (entry : List Byte) (s : State) : State × Code :=
  match asFin 40 index with
  | none => (s, .range)
  | some j =>
    if byteAt entry 0 = 0xFF then
      (s.modLamp fun l => { l with links := l.links.filter fun x => x.1 != j }, .ok)
    else
      match asFin 48 (byteAt entry 0).toNat with
      | none => (s, .invalid)
      | some w =>
        if s.lamp.lines[w].role ≠ .spare then (s, .invalid)
        else if s.lamp.links.any fun x => x.2 == w && x.1 != j then (s, .invalid)
        else if (linkOf s.lamp j).isNone && 8 ≤ s.lamp.links.length then (s, .invalid)
        else (s.modLamp fun l => { l with links := setLink j w l.links }, .ok)

end Sys2Proof.Machine
end

