-- ==== Sys2Proof/Machine/Tally.lean ====
section
/-! DEFINITION. The Tally Resolver (08_tally_and_calls.md): buses, GPIs, camera table, tally map resolution and the
call register. -/

namespace Sys2Proof.Machine

open Sys2Proof

/-! ### Resolution (R158, R159, R164) -/

/-- The source id is in the set. -/
def inSet (x : SourceSet) (id : Byte) : Bool := x.getLsbD id.toNat
/-- R158: the first term whose source is in the active set of its bus. -/
def resolvedTerm (t : Tally) (r : TallyRec) : Option Term :=
  r.terms.find? fun x => inSet t.buses[x.bus].active x.source
/-- R164: the register holds a call whose target is the record's call point. -/
def underOverlay (t : Tally) (r : TallyRec) : Bool :=
  match r.callPoint with
  | none => false
  | some p => t.calls.any fun c => c.target == p
/-- R158, R164: the drive of a lamp. -/
def lampDrive (t : Tally) (r : TallyRec) : Drive :=
  match resolvedTerm t r with
  | none => if underOverlay t r then .pulse else .off
  | some x => if underOverlay t r && !x.air then .pulse else x.drive

/-- R159: a lamp is resolved, and its drive handed when it differs from the one last handed. -/
def resolveLamp (j : LampId) (s : State) : State :=
  let d := lampDrive s.tally s.tally.map[j]
  if d = s.tally.drives[j] then s
  else handGenerator j d (s.modTally fun t => { t with drives := t.drives.set j d })

/-- R159: the lamps whose call point is `p` are resolved. -/
def resolveFor (p : PointId) (s : State) : State :=
  forFin 40 (fun j acc => if acc.tally.map[j].callPoint = some p then resolveLamp j acc else acc) s

/-! ### Buses and the switch point (R147 to R156) -/

/-- R149: a bus of B0..B14 at a switch point of epoch `e`. -/
def applyBus (e : Epoch) (b : Bus) : Bus :=
  match b.pending with
  | some (set, t) => if reached e t then { active := set, pending := none } else b
  | none => b

/-- R153: a GPI shows in the local bus. -/
def gpiShows (g : GpiEntry) (x : GpiState) : Bool := g.enable && (x.cond || x.mark)

/-- R153: the active set of B15. -/
def localBus (t : Tally) : SourceSet :=
  BitVec.ofNat 256 (bitsOf 256 fun id =>
    (List.finRange 16).any fun i => gpiShows t.gpi[i] t.gpiState[i] && t.gpi[i].source.toNat == id)

/-- R149, R153, R163: steps 1 to 3 of the switch point of epoch `e`. -/
def tallyStep (e : Epoch) (t : Tally) : Tally :=
  let b15 := localBus t
  { t with
    buses := vof 16 fun i => if i = 15 then { t.buses[i] with active := b15 } else applyBus e t.buses[i]
    gpiState := vmap (fun x => { x with mark := false }) t.gpiState
    calls := (t.calls.map fun c => { c with remaining := c.remaining - 1 }).filter fun c => c.remaining != 0 }

/-- R149: steps 1 to 4 of the switch point. -/
def tallySwitchPoint (e : Epoch) (s : State) : State := forFin 40 resolveLamp (s.modTally (tallyStep e))

/-- R156: the buses whose active set differs from `old`'s. -/
def changedBuses (old new : Tally) : List BusId :=
  (List.finRange 16).filter fun i => old.buses[i].active != new.buses[i].active

/-- R148: a TALLY_SET cell. -/
def takeTallySet (src : Byte) (m : TallySetMsg) (s : State) : State :=
  match (if m.bus.toNat < 15 then asFin 16 m.bus.toNat else none), readTarget m.mode m.epoch with
  | some b, some target =>
    let s1 := s.modTally fun t =>
      { t with buses := vmod t.buses b fun x => { x with pending := some (m.set, heldTarget s.sp.epoch target) } }
    if isLate s.sp.epoch target then report .tallyLate ([m.bus, m.epoch] ++ epochField s1 ++ [src]) s1 else s1
  | _, _ => s.modTally fun t => { t with rejects := satAdd t.rejects 1 }

/-! ### GPIs (R151, R152) -/

/-- R152: one GPI at a sample. -/
def sampleGpi (closed : Bool) (g : GpiEntry) (x : GpiState) : GpiState :=
  if !g.enable then x
  else
    let input := closed != g.invert
    if input = x.cond then { x with run := 0 }
    else if g.debounce < x.run + 1 then { cond := input, run := 0, mark := x.mark || (input && g.latch) }
    else { x with run := x.run + 1 }

/-- R152: the sample of all GPIs, when that of the current frame is still to be taken. -/
def takeGpiSample (closed : BitVec 16) (s : State) : State :=
  if s.tally.gpiDue then
    s.modTally fun t =>
      { t with
        gpiDue := false
        gpiState := vof 16 fun i => sampleGpi (closed.getLsbD i.val) t.gpi[i] t.gpiState[i] }
  else s

/-- R151: a GPI entry's bytes. The yes-or-no fields are read as 0 no and 1 yes (DESIGN CHOICE, log 50). -/
def readGpi (entry : List Byte) : Option GpiEntry := do
  let enable ← readFlag (byteAt entry 0)
  let invert ← readFlag (byteAt entry 1)
  let latch ← readFlag (byteAt entry 3)
  if 15 < (byteAt entry 2).toNat then none
  else return { enable := enable, invert := invert, debounce := (byteAt entry 2).toNat, latch := latch, source := byteAt entry 4 }

/-- R151: what a write does to the GPI's state. -/
def gpiAfterWrite (old new : GpiEntry) (x : GpiState) : GpiState :=
  if old.enable != new.enable then { cond := false, run := 0, mark := false }
  else if old.latch && !new.latch then { x with mark := false }
  else x

/-- R151: a GPI entry; its index is judged before its fields (DESIGN CHOICE, log 48). -/
def writeGpi (index : Nat) (entry : List Byte) (s : State) : State × Code :=
  match asFin 16 index with
  | none => (s, .range)
  | some i =>
    match readGpi entry with
    | none => (s, .invalid)
    | some g =>
      (s.modTally fun t =>
        { t with
          gpi := t.gpi.set i g
          gpiState := vmod t.gpiState i (gpiAfterWrite t.gpi[i] g) }, .ok)

/-! ### Camera table and tally map (R155, R157) -/

/-- R155: a CAMERA entry; its index is judged before its point (DESIGN CHOICE, log 48). -/
def writeCamera (index : Nat) (entry : List Byte) (s : State) : State × Code :=
  match asFin 256 index with
  | none => (s, .range)
  | some i =>
    match readPointOpt (halfAt entry 0) with
    | none => (s, .invalid)
    | some p => (s.modTally fun t => { t with camera := t.camera.set i p }, .ok)

/-- R157: a term of five bytes, with its clamps. Bits 6..2 of the drive byte, the last two bytes of a STEADY term and the last
of a DIM term, of which R213 says nothing, are ignored (DESIGN CHOICE, log 51). -/
def readTerm (p : List Byte) : Option Term := do
  let bus ← asFin 16 (byteAt p 0).toNat
  let air := (byteAt p 2).getLsbD 7
  let a := (byteAt p 3).toNat
  let b := (byteAt p 4).toNat
  match (byteAt p 2).toNat % 4 with
  | 0 => return { bus := bus, source := byteAt p 1, drive := .steady, air := air }
  | 1 => return { bus := bus, source := byteAt p 1, drive := .dim (max 1 (min a 15)), air := air }
  | 2 => return { bus := bus, source := byteAt p 1, drive := .flash (min a 32) (min b 32), air := air }
  | _ => none

/-- R157: a TALLYMAP entry's bytes; terms beyond the count are ignored. -/
def readTallyRec (entry : List Byte) : Option TallyRec := do
  let n := (byteAt entry 0).toNat
  if 4 < n then none
  else
    let call ← readPointOpt (halfAt entry 1)
    let terms ← (List.range n).mapM fun k => readTerm (entry.drop (3 + 5 * k))
    return { terms := terms, callPoint := call }

/-- R157, R159: a TALLYMAP entry; the lamp is resolved at once. Its index is judged before its fields (DESIGN CHOICE,
log 48). -/
def writeTallymap (index : Nat) (entry : List Byte) (s : State) : State × Code :=
  match asFin 40 index with
  | none => (s, .range)
  | some j =>
    match readTallyRec entry with
    | none => (s, .invalid)
    | some r => (resolveLamp j (s.modTally fun t => { t with map := t.map.set j r }), .ok)

/-! ### Calls (R160 to R163) -/

/-- R160: a point is held at this node for calls. -/
def heldHere (s : State) (p : PointId) : Bool :=
  (s.mix.recs.toList.any fun r => r.point == some p) || (s.panel.maps.toList.any fun k => k.point == some p) ||
    (s.tally.map.toList.any fun r => r.callPoint == some p)

/-- A call is known by its pair (R161). -/
def isCall (target caller : PointId) (c : Call) : Bool := c.target == target && c.caller == caller

/-- R161: the smallest remaining count, and among equals the oldest. -/
def shortestCall (l : List Call) : Option Call :=
  l.foldl (fun best x =>
    match best with
    | none => some x
    | some v => if x.remaining < v.remaining then some x else some v) none

/-- The register without a call. -/
def dropCall (target caller : PointId) (l : List Call) : List Call := l.filter fun c => !isCall target caller c

/-- The register changed. -/
def modCalls (f : List Call → List Call) (s : State) : State := s.modTally fun t => { t with calls := f t.calls }

/-- R161: a CALL taken: present, room, full. In a full register the lamps are resolved once, after removal and append
(DESIGN CHOICE, log 52). -/
def enterCall (c : Call) (s : State) : State :=
  if s.tally.calls.any (isCall c.target c.caller) then
    modCalls (fun l => l.map fun x => if isCall c.target c.caller x then c else x) s
  else if s.tally.calls.length < 16 then resolveFor c.target (modCalls (· ++ [c]) s)
  else
    match shortestCall s.tally.calls with
    | some v =>
      resolveFor c.target (resolveFor v.target (modCalls (fun l => dropCall v.target v.caller l ++ [c]) s))
    | none => s

/-- R161: a CALL by its points and duration; ignored when the duration is 0 or the target is not held here. -/
def takeCallFor (target caller : PointId) (duration : Nat) (s : State) : State :=
  if duration = 0 || !heldHere s target then s
  else enterCall { target := target, caller := caller, remaining := duration } s

/-- R161: a CALL cell. -/
def takeCall (m : CallMsg) (s : State) : State :=
  match asFin 1024 m.target.toNat, asFin 1024 m.caller.toNat with
  | some t, some c => takeCallFor t c m.duration.toNat s
  | _, _ => s

/-- R162: the register's entry for a pair is removed. -/
def cancelCall (target caller : PointId) (s : State) : State :=
  if s.tally.calls.any (isCall target caller) then resolveFor target (modCalls (dropCall target caller) s) else s

/-- R162: a CALL_CANCEL cell. -/
def takeCancel (m : CancelMsg) (s : State) : State :=
  match asFin 1024 m.target.toNat, asFin 1024 m.caller.toNat with
  | some t, some c => cancelCall t c s
  | _, _ => s

end Sys2Proof.Machine
end

