-- ==== Sys2Proof/Machine/Keys.lean ====
section
/-! DEFINITION. The Panel Line Controller and the Key Processor (07_panel_lines_and_keys.md): conditioning, modes,
functions, line states, key lamps, KEYMAP and KEY writes. -/

namespace Sys2Proof.Machine

open Sys2Proof

/-- The running state of a key. -/
def keyState (s : State) (m : MapId) (k : KeyId) : KeyState := s.panel.keys[keyIx m k]
/-- The entry of a key. -/
def keyEntry (s : State) (m : MapId) (k : KeyId) : KeyEntry := s.panel.entries[keyIx m k]
/-- The running state of a key changed. -/
def modKey (m : MapId) (k : KeyId) (f : KeyState → KeyState) (s : State) : State :=
  s.modPanel fun p => { p with keys := vmod p.keys (keyIx m k) f }
/-- A panel line changed. -/
def modPanelLine (i : LineId) (f : PanelLine → PanelLine) (s : State) : State :=
  s.modPanel fun p => { p with lines := vmod p.lines i f }
/-- The line that is BOUND to a key map. -/
def boundLine (p : Panel) (m : MapId) : Option LineId :=
  firstFin fun i => p.lines[i].state == .bound && p.lines[i].map == some m
/-- R137, R136: a key refusal window starts, or starts again. -/
def startWindow (m : MapId) (k : KeyId) (s : State) : State := modKey m k (fun x => { x with window := some 50 }) s

/-! ### Functions (R133 to R139) -/

/-- R133: a talk is asked for; a full origin table leaves a local refusal. -/
def startTalk (m : MapId) (k : KeyId) (target : TalkTarget) (s : State) : State :=
  let r := createOrigin m k none target s
  if r.2 then r.1 else modKey m k (fun x => { x with refusedLocal := true }) r.1

/-- R134: the first `cap` points on bus `b`, source ids in ascending order, each point once. -/
def resolvePoints (t : Tally) (b : BusId) (cap : Nat) : List PointId :=
  let points := (List.finRange 256).filterMap fun id : Fin 256 =>
    if t.buses[b].active.getLsbD id.val then t.camera[id] else none
  (points.foldl (fun acc p => if p ∈ acc then acc else acc ++ [p]) []).take cap

/-- R134: an origin entry for one resolved point, under the lowest free sub-index; refused, the point is kept so. -/
def startTallyTalk (m : MapId) (k : KeyId) (p : PointId) (s : State) : State :=
  let refuse := modKey m k fun x => { x with refusedPoints := x.refusedPoints ++ [p] }
  match firstFin fun i : Fin 4 => (findOrigin s.talk m k (some i)).isNone with
  | none => refuse s
  | some i =>
    let r := createOrigin m k (some i) (.point p) s
    if r.2 then r.1 else refuse r.1

/-- R135: the talk of a key to one point is ended, refused or not. -/
def endTallyTalk (m : MapId) (k : KeyId) (p : PointId) (s : State) : State :=
  let found := firstFin fun i : OriginId =>
    match s.talk.origins[i] with
    | some e => e.map == m && e.key == k && e.target == .point p
    | none => false
  let s1 := match found with
    | none => s
    | some i => endOrigin i s
  modKey m k (fun x => { x with refusedPoints := x.refusedPoints.filter fun q => q != p }) s1

/-- R138: a TALK_POINT key that is being called answers the call. -/
def answerCall (m : MapId) (p : PointId) (s : State) : State :=
  match s.panel.maps[m].point with
  | none => s
  | some own =>
    if s.tally.calls.any (isCall own p) then
      cancelCall own p (sendCell .callCancel 63 none (b16 own.val ++ b16 p.val) s)
    else s

/-- R139: where a ROUTE key's take goes, and the route state it leaves. -/
def startRoute (m : MapId) (k : KeyId) (node : Byte) (dest : DestId) (x : Source) (s : State) : State :=
  let src := sourceBytes x
  if node = s.trunk.addr then
    let r := routerTake node [(b8 dest.val, halfAt src 0)] .next s
    let good := r.2.code == .ok || r.2.code == .replaced || r.2.code == .late
    modKey m k (fun y => { y with route := if good then .confirm 50 else .refused 50 }) r.1
  else
    let r := createCell .request node none ([4] ++ targetBytes .next ++ [1, b8 dest.val] ++ src) s
    modKey m k (fun y => { y with route := .awaiting node r.2 50 }) r.1

/-- R133 to R139: the function of a key is activated. -/
def activateFn (m : MapId) (k : KeyId) (s : State) : State :=
  match (keyEntry s m k).fn with
  | .none => s
  | .talkPoint p => startTalk m k (.point p) (answerCall m p s)
  | .talkConf c => startTalk m k (.conf c) s
  | .talkTally b cap =>
    let points := resolvePoints s.tally b cap
    points.foldl (fun acc p => startTallyTalk m k p acc) (modKey m k (fun x => { x with resolved := points }) s)
  | .listenConf c =>
    let r := toggleSub s.panel.maps[m].listen c s
    let s1 := modKey m k (fun x => { x with toggled := r.2 }) r.1
    if r.2.isNone then startWindow m k s1 else s1
  | .call p duration =>
    match s.panel.maps[m].point with
    | none => startWindow m k s
    | some own =>
      takeCallFor p own duration (sendCell .call 63 none (b16 p.val ++ b16 own.val ++ [b8 duration]) s)
  | .route node dest x => startRoute m k node dest x s

/-- R133 to R139: the function of a key is deactivated. -/
def deactivateFn (m : MapId) (k : KeyId) (s : State) : State :=
  match (keyEntry s m k).fn with
  | .none | .call _ _ | .route _ _ _ => s
  | .talkPoint _ | .talkConf _ => modKey m k (fun x => { x with refusedLocal := false }) (endKeyOrigin m k none s)
  | .talkTally _ _ => modKey m k (fun x => { x with resolved := [], refusedPoints := [] }) (endKeyOrigins m k s)
  | .listenConf c =>
    if (keyState s m k).toggled.isNone then s
    else
      let r := toggleSub s.panel.maps[m].listen c s
      let s1 := modKey m k (fun x => { x with toggled := none }) r.1
      if r.2.isNone then startWindow m k s1 else s1

/-- The active state of a key is set; the function acts when it changes (07, Key modes). -/
def setActive (m : MapId) (k : KeyId) (on : Bool) (s : State) : State :=
  if (keyState s m k).active = on then s
  else
    let s1 := modKey m k (fun x => { x with active := on }) s
    if on then activateFn m k s1 else deactivateFn m k s1

/-! ### Modes (R131, R132) -/

/-- The AUTO mode state set. -/
def setAuto (m : MapId) (k : KeyId) (a : AutoState) (s : State) : State := modKey m k (fun x => { x with auto := a }) s

/-- R132: an AUTO key takes a press. -/
def autoPress (m : MapId) (k : KeyId) (s : State) : State :=
  match (keyState s m k).auto with
  | .idle => setActive m k true (modKey m k (fun x => { x with auto := .holding, hold := 0 }) s)
  | .latched => setActive m k false (setAuto m k .ending s)
  | _ => s

/-- R132: an AUTO key takes a release. -/
def autoRelease (m : MapId) (k : KeyId) (s : State) : State :=
  match (keyState s m k).auto with
  | .holding => setAuto m k .latched s
  | .momentaryHold => setActive m k false (setAuto m k .idle s)
  | .ending => setAuto m k .idle s
  | _ => s

/-- R131, R132: the mode of a key takes a press (`true`) or a release. -/
def takeEdge (m : MapId) (k : KeyId) (press : Bool) (s : State) : State :=
  match (keyEntry s m k).mode with
  | .momentary => setActive m k press s
  | .latching => if press then setActive m k (!(keyState s m k).active) s else s
  | .auto => if press then autoPress m k s else autoRelease m k s

/-- R132: a HOLDING key whose hold count has reached the threshold goes to MOMENTARY_HOLD. -/
def holdReached (threshold : Nat) (x : KeyState) : KeyState :=
  if x.auto = .holding && threshold ≤ x.hold then { x with auto := .momentaryHold } else x

/-- R132: a new scan in which the key stays pressed. -/
def holdScan (threshold : Nat) (mode : KeyMode) (x : KeyState) : KeyState :=
  if mode = .auto && x.auto = .holding && x.cond then holdReached threshold { x with hold := min (x.hold + 1) 255 } else x

/-! ### Conditioning (R130) and events (R141) -/

/-- R130: the conditioned input of a key. -/
def keyInput (e : KeyEntry) (pressed : Nat) (k : KeyId) : Bool := pressed.testBit k.val != e.invert

/-- R130, R125: one key in a new scan; the edges reported so far come with it, newest first. R132: a HOLDING key whose
count already stands at the threshold, as after a write of H, goes to MOMENTARY_HOLD at its next scan, before an edge of
that scan is taken. -/
def scanKey (m : MapId) (pressed : Nat) (k : KeyId) (a : State × List (KeyId × Bool)) : State × List (KeyId × Bool) :=
  let s := a.1
  let e := keyEntry s m k
  let x := keyState s m k
  let input := keyInput e pressed k
  let hold := holdScan s.mgmt.params.hold e.mode
  if input = x.cond then (modKey m k (fun x => hold { x with run := 0 }) s, a.2)
  else if x.run + 1 ≤ e.debounce then (modKey m k (fun x => hold { x with run := x.run + 1 }) s, a.2)
  else
    let s1 := modKey m k (fun x => holdReached s.mgmt.params.hold { x with cond := input, run := 0 }) s
    if x.held && !input then (modKey m k (fun x => { x with held := false }) s1, a.2)
    else (takeEdge m k input s1, (k, input) :: a.2)

/-- R141: an edge that the key's report asks for. -/
def reportsEdge (r : KeyReport) (press : Bool) : Bool :=
  match r with
  | .none => false
  | .press => press
  | .release => !press
  | .both => true

/-- R141: KEY_EVENT. -/
def reportKey (i : LineId) (m : MapId) (sc : Scan) (s : State) (edge : KeyId × Bool) : State :=
  if reportsEdge (keyEntry s m edge.1).report edge.2 then
    report .keyEvent
      ([b8 i.val, sc.panelId, b8 m.val, b8 edge.1.val, if edge.2 then 0 else 1, sc.scanNo] ++ epochField s) s
  else s

/-- R125, steps 1 to 4: the keys of a bound map take a new scan. -/
def scanKeys (i : LineId) (m : MapId) (sc : Scan) (s : State) : State :=
  let r := forFin 32 (scanKey m sc.pressed) (s, [])
  r.2.reverse.foldl (reportKey i m sc) r.1

/-- R130: a key at binding. -/
def bindKey (e : KeyEntry) (pressed : Nat) (k : KeyId) (x : KeyState) : KeyState :=
  { x with cond := keyInput e pressed k, run := 0, held := keyInput e pressed k }

/-- R130: every key of a map at binding. -/
def bindKeys (m : MapId) (pressed : Nat) (s : State) : State :=
  forFin 32 (fun k acc => modKey m k (bindKey (keyEntry acc m k) pressed k) acc) s

/-! ### Line states (R124, R126, R127) -/

/-- R124: the key map a panel id binds to. -/
def bindingMap (p : Panel) (id : Byte) : Option MapId := firstFin fun m => p.maps[m].panelId == id && id != 0

/-- R124: PANEL_CHANGE. -/
def reportPanel (i : LineId) (old : LineState) (id : Byte) (s : State) : State :=
  let ln := s.panel.lines[i]
  report .panelChange
    ([b8 i.val, lineStateCode old, lineStateCode ln.state, id, optByte ln.map] ++ epochField s) s

/-- A line in ABSENT: no last SCAN, no bound map, no timeout count (R123, R126). -/
def toAbsent (ln : PanelLine) : PanelLine :=
  { ln with state := .absent, panelId := none, scanNo := none, map := none, timeout := 0 }

/-- R127, step 2: the keys of a map are released, in ascending key order. -/
def releaseKeys (m : MapId) (s : State) : State := forFin 32 (fun k => setActive m k false) s

/-- R127, step 3: the key states of a map are cleared, hold count and recorded toggle among them (DESIGN CHOICE, log 59). -/
def clearKeys (m : MapId) (s : State) : State := forFin 32 (fun k => modKey m k fun _ => KeyState.reset) s

/-- R127: a line leaves its state for ABSENT and the change is reported; from BOUND its map's talks then end, its keys
are released and their states cleared. -/
def loseLine (i : LineId) (id : Byte) (s : State) : State :=
  let ln := s.panel.lines[i]
  let s1 := reportPanel i ln.state id (modPanelLine i toAbsent s)
  match ln.state, ln.map with
  | .bound, some m => clearKeys m (releaseKeys m (endMapOrigins m s1))
  | _, _ => s1

/-- R124: the state that a SCAN of panel `id` finds from ABSENT, UNBOUND or DUPLICATE, with the map it binds to. -/
def evaluateLine (p : Panel) (id : Byte) : LineState × Option MapId :=
  match bindingMap p id with
  | none => (.unbound, none)
  | some m => if (boundLine p m).isSome then (.duplicate, none) else (.bound, some m)

/-- R124, R130: a line that is not BOUND evaluates a SCAN. -/
def enterLine (i : LineId) (sc : Scan) (s : State) : State :=
  let old := s.panel.lines[i].state
  let r := evaluateLine s.panel sc.panelId
  let s1 := modPanelLine i (fun ln =>
    { ln with state := r.1, map := r.2, panelId := some sc.panelId, scanNo := some sc.scanNo, timeout := 0 }) s
  let s2 := match r.2 with
    | some m => bindKeys m sc.pressed s1
    | none => s1
  if old = r.1 then s2 else reportPanel i old sc.panelId s2

/-! ### Key lamps (R142) -/

/-- R142: the points of a key. -/
def keyPoints (e : KeyEntry) (x : KeyState) : List PointId :=
  match e.fn with
  | .talkPoint p | .call p _ => [p]
  | .talkTally _ _ => x.resolved
  | _ => []

/-- R142: the function of a key is active. -/
def fnActive (s : State) (m : MapId) (k : KeyId) : Bool :=
  let live := (keyOrigins s.talk m k).any fun o => o.state == .requested || o.state == .granted
  match (keyEntry s m k).fn with
  | .none => false
  | .talkPoint _ | .talkConf _ | .talkTally _ _ => live
  | .listenConf c => (s.mix.recs[s.panel.maps[m].listen].subs).contains c
  | .call _ _ => (keyState s m k).active
  | .route _ _ _ =>
    match (keyState s m k).route with
    | .confirm _ => true
    | _ => false

/-- R142, line 1: the key is refused. -/
def keyRefused (s : State) (m : MapId) (k : KeyId) : Bool :=
  let x := keyState s m k
  ((keyOrigins s.talk m k).any fun o => o.state == .denied || o.state == .displaced || o.state == .noAnswer) ||
    x.refusedLocal || !x.refusedPoints.isEmpty || x.window.isSome

/-- R142, line 2. -/
def routeRefused (x : KeyState) : Bool :=
  match x.route with
  | .refused _ => true
  | _ => false

/-- R142, line 3: the key is called. -/
def keyCalled (s : State) (m : MapId) (k : KeyId) : Bool :=
  match s.panel.maps[m].point with
  | none => false
  | some own => s.tally.calls.any fun c => c.target == own && (keyPoints (keyEntry s m k) (keyState s m k)).contains c.caller

/-- R142, line 5: a point of the key is heard. -/
def keyHeard (s : State) (m : MapId) (k : KeyId) : Bool :=
  (s.mix.contrib[s.panel.maps[m].listen]).any fun c =>
    match c.point with
    | none => false
    | some p => (keyPoints (keyEntry s m k) (keyState s m k)).contains p

/-- R142: the pattern of a key, as its code (R214). -/
def keyPattern (s : State) (m : MapId) (k : KeyId) : Nat :=
  if keyRefused s m k then 4
  else if routeRefused (keyState s m k) then 4
  else if keyCalled s m k then 3
  else if fnActive s m k then 2
  else if keyHeard s m k then 1
  else 0

/-- R142, R214: the LAMPS entry of a key. -/
def lampsEntry (s : State) (m : MapId) (k : KeyId) : Byte :=
  b8 ((colourCode (keyEntry s m k).colour).toNat * 16 + keyPattern s m k)

/-- R122: the LAMPS message that answers a valid SCAN; on a line that is not BOUND every entry is OFF and RED. -/
def composeLamps (s : State) (i : LineId) : List Byte :=
  match s.panel.lines[i].state, s.panel.lines[i].map with
  | .bound, some m => lampsMessage ((List.finRange 32).map fun k => lampsEntry s m k)
  | _, _ => lampsMessage (List.replicate 32 0)

/-- R122: the line is answered. -/
def answerLamps (i : LineId) (s : State) : State := modPanelLine i (fun ln => { ln with lamps := some (composeLamps s i) }) s

/-- R108: on a BOUND line the knob sets the level of the map's listen output. -/
def handKnob (i : LineId) (knob : Byte) (s : State) : State :=
  match s.panel.lines[i].state, s.panel.lines[i].map with
  | .bound, some m => setKnob s.panel.maps[m].listen knob s
  | _, _ => s

/-- R123: the SCAN repeats the previous valid SCAN of the line. -/
def isRepeat (ln : PanelLine) (sc : Scan) : Bool := ln.scanNo == some sc.scanNo && ln.panelId == some sc.panelId

/-- R124: the line is BOUND to a map that carries the SCAN's panel id. -/
def staysBound (p : Panel) (i : LineId) (id : Byte) : Option MapId :=
  match p.lines[i].state, p.lines[i].map with
  | .bound, some m => if p.maps[m].panelId = id then some m else none
  | _, _ => none

/-- R122 to R125: a message on a panel line. -/
def takeScan (i : LineId) (bytes : List Byte) (s : State) : State :=
  match readScan bytes with
  | none => modPanelLine i (fun ln => { ln with badScans := satAdd ln.badScans 1 }) s
  | some sc =>
    if isRepeat s.panel.lines[i] sc then
      answerLamps i (handKnob i sc.knob (modPanelLine i (fun ln => { ln with timeout := 0 }) s))
    else
      let s1 :=
        match staysBound s.panel i sc.panelId with
        | some m => scanKeys i m sc (modPanelLine i (fun ln => { ln with scanNo := some sc.scanNo, timeout := 0 }) s)
        | none =>
          if s.panel.lines[i].state = .bound then enterLine i sc (loseLine i sc.panelId s) else enterLine i sc s
      answerLamps i (handKnob i sc.knob s1)

/-- R126: a line that is not ABSENT and has had no valid SCAN for 1920 frames. -/
def timeoutDue (ln : PanelLine) : Bool := ln.state != .absent && 1920 ≤ ln.timeout

/-- R126: the line goes to ABSENT. -/
def timeoutLine (i : LineId) (s : State) : State :=
  let ln := s.panel.lines[i]
  if timeoutDue ln then loseLine i (ln.panelId.getD 0) s else s

/-! ### Switch points (R135, R140, R143) -/

/-- R143: a refusal window at a switch point. -/
def stepWindow : Option Nat → Option Nat
  | none => none
  | some n => if n ≤ 1 then none else some (n - 1)

/-- R140: a route state whose countdown has reached 0. -/
def endRoute : RouteKey → RouteKey
  | .awaiting _ _ _ => .refused 50
  | .confirm _ | .refused _ => .idle
  | .idle => .idle

/-- R140: a route state at a switch point. -/
def stepRoute (r : RouteKey) : RouteKey :=
  match r with
  | .idle => .idle
  | .awaiting node tag n => if n ≤ 1 then endRoute r else .awaiting node tag (n - 1)
  | .confirm n => if n ≤ 1 then endRoute r else .confirm (n - 1)
  | .refused n => if n ≤ 1 then endRoute r else .refused (n - 1)

/-- R143: windows and route states at a switch point. -/
def keySwitchPoint (s : State) : State :=
  s.modPanel fun p =>
    { p with keys := vmap (fun x => { x with window := stepWindow x.window, route := stepRoute x.route }) p.keys }

/-- R135: an active tally-follow key takes the new list of its bus. The leavers are ended in the order of the old list,
for which the rule gives none (DESIGN CHOICE, log 46). -/
def reresolveKey (m : MapId) (k : KeyId) (b : BusId) (cap : Nat) (s : State) : State :=
  let old := (keyState s m k).resolved
  let new := resolvePoints s.tally b cap
  let s1 := (old.filter fun p => !new.contains p).foldl (fun acc p => endTallyTalk m k p acc) s
  let s2 := modKey m k (fun x => { x with resolved := new }) s1
  (new.filter fun p => !old.contains p).foldl (fun acc p => startTallyTalk m k p acc) s2

/-- R135, R156: one key hears that bus `b` has changed. -/
def announceToKey (b : BusId) (m : MapId) (k : KeyId) (s : State) : State :=
  match (keyEntry s m k).fn with
  | .talkTally b' cap => if b' = b && (keyState s m k).active then reresolveKey m k b cap s else s
  | _ => s

/-- R156: bus `b` is announced to every key, in ascending order of map and key. -/
def announceBus (s : State) (b : BusId) : State :=
  forFin 8 (fun m acc => forFin 32 (fun k => announceToKey b m k) acc) s

/-! ### Replies (R140) -/

/-- R140: the key waits for a REPLY of this tag from this node. -/
def awaits (node tag : Byte) (x : KeyState) : Bool :=
  match x.route with
  | .awaiting n t _ => n == node && t == some tag
  | _ => false

/-- R140: a REPLY cell; OK, REPLACED and LATE confirm, any other code refuses. -/
def takeReply (src tag : Byte) (m : ReplyMsg) (s : State) : State :=
  match firstFin fun i : Fin 256 => awaits src tag s.panel.keys[i] with
  | none => s
  | some i =>
    s.modPanel fun p =>
      { p with
        keys := vmod p.keys i fun x => { x with route := if m.code.toNat ≤ 2 then .confirm 50 else .refused 50 } }

/-! ### Writes (R128, R129) -/

/-- R128: a KEYMAP entry's bytes. -/
def readKeyMap (entry : List Byte) : Option KeyMap := do
  let listen ← asFin 24 (byteAt entry 1).toNat
  let slot ← asFin 128 (byteAt entry 2).toNat
  let point ← readPointOpt (halfAt entry 3)
  let prio ← asFin 4 (byteAt entry 5).toNat
  return { panelId := byteAt entry 0, listen := listen, slot := slot, point := point, prio := prio }

/-- A line that is BOUND to map `m`, if any, goes to ABSENT (R127, R128). -/
def unbindMap (m : MapId) (s : State) : State :=
  match boundLine s.panel m with
  | none => s
  | some i => loseLine i (s.panel.lines[i].panelId.getD 0) s

/-- R128: the lines that a write of map `m` takes out of BOUND: its own when its panel id or listen output changes, and
that of a higher map whose panel id `m` newly takes, in this order, for which the rule gives none (DESIGN CHOICE,
log 47). -/
def unbindForMap (m : MapId) (old new : KeyMap) (s : State) : State :=
  let s1 := if old.panelId != new.panelId || old.listen != new.listen then unbindMap m s else s
  if old.panelId != new.panelId && new.panelId != 0 then
    forFin 8 (fun j acc => if m < j && acc.panel.maps[j].panelId == new.panelId then unbindMap j acc else acc) s1
  else s1

/-- R128: a KEYMAP entry; its index is judged before its fields (DESIGN CHOICE, log 48). -/
def writeKeyMap (index : Nat) (entry : List Byte) (s : State) : State × Code :=
  match asFin 8 index with
  | none => (s, .range)
  | some m =>
    match readKeyMap entry with
    | none => (s, .invalid)
    | some k =>
      ((unbindForMap m s.panel.maps[m] k s).modPanel fun p => { p with maps := p.maps.set m k }, .ok)

/-- R129: a key's function and target; none when the target does not fit. `p` starts at the function byte. -/
def readKeyFn (p : List Byte) : Option KeyFn :=
  match (byteAt p 0).toNat with
  | 0 => some .none
  | 1 => (asFin 1024 (halfAt p 1).toNat).map .talkPoint
  | 2 => (asFin 64 (halfAt p 1).toNat).map .talkConf
  | 3 => do
    let b ← asFin 16 (byteAt p 1).toNat
    let cap := (byteAt p 2).toNat
    if 1 ≤ cap && cap ≤ 4 then return .talkTally b cap else none
  | 4 => (asFin 64 (halfAt p 1).toNat).map .listenConf
  | 5 => do
    let q ← asFin 1024 (halfAt p 1).toNat
    if byteAt p 3 = 0 then none else return .call q (byteAt p 3).toNat
  | 6 => do
    let dest ← asFin 64 (byteAt p 2).toNat
    let x ← readSource (halfAt p 3)
    if sourceOk (byteAt p 1) then return .route (byteAt p 1) dest x else none
  | _ => none

/-- R129: a KEY entry's bytes. -/
def readKeyEntry (entry : List Byte) : Option KeyEntry := do
  let fn ← readKeyFn entry
  let mode ← [KeyMode.momentary, .latching, .auto][(byteAt entry 5).toNat]?
  let invert ← readFlag (byteAt entry 6)
  let report ← [KeyReport.none, .press, .release, .both][(byteAt entry 8).toNat]?
  let colour ← [Colour.red, .green, .amber][(byteAt entry 9).toNat]?
  if 15 < (byteAt entry 7).toNat then none
  else
    return { fn := fn, mode := mode, invert := invert, debounce := (byteAt entry 7).toNat, report := report,
             colour := colour }

/-- R129: the state of a key of a bound map after its entry is written. Hold count and recorded toggle are cleared too (DESIGN
CHOICE, log 59). -/
def keyAfterWrite (x : KeyState) : KeyState := { KeyState.reset with cond := x.cond, run := x.run, held := x.cond }

/-- R129: a KEY entry; a key of a bound map is ended by its old entry and its state reset. Its index is judged before its
fields (DESIGN CHOICE, log 48). -/
def writeKey (index : Nat) (entry : List Byte) (s : State) : State × Code :=
  match asFin 256 index with
  | none => (s, .range)
  | some i =>
    match readKeyEntry entry with
    | none => (s, .invalid)
    | some e =>
      let m : MapId := ⟨i.val / 32, by omega⟩
      let k : KeyId := ⟨i.val % 32, by omega⟩
      let s1 := if (boundLine s.panel m).isSome then modKey m k keyAfterWrite (setActive m k false s) else s
      (s1.modPanel fun p => { p with entries := p.entries.set i e }, .ok)

end Sys2Proof.Machine
end

