-- ==== Sys2Proof/Machine/SwitchPoint.lean ====
section
/-! DEFINITION. The Switch Point Unit (02_switch_points_and_epochs.md): the delivery of a switch point to the blocks,
markers acted on, and the commands that make switch points or move the reference state. -/

namespace Sys2Proof.Machine

open Sys2Proof

/-! ### Who a command acts on (R2) -/

/-- A command that changes a ring member by `f`; a pass-through repeater is left as it is. -/
def act (f : State → State) (s : State) : Host.Outcome State Fault Refusal :=
  .next (if isMember s.trunk then f s else s)

/-! ### Delivery (R36) -/

/-- R23, R11: the Trunk Interface at a switch point. -/
def trunkSwitchPoint (s : State) : State :=
  s.modTrunk fun t =>
    { t with conflictReported := false, east := integrityClose t.east, west := integrityClose t.west }

/-- R149, R156: the Tally Resolver at a switch point; each bus that changed is then announced to the keys. -/
def tallyDelivery (e : Epoch) (s : State) : State :=
  let s1 := tallySwitchPoint e s
  (changedBuses s.tally s1.tally).foldl announceBus s1

/-- R199: the load that `r` describes closes without a memory and is reported. -/
def abandonLoad (r : LoadRec) (s : State) : State :=
  let s1 := s.modMgmt fun m => { m with load := .closed none }
  report .loadAbandoned ([tableCode r.table, r.requester] ++ b16 r.judged ++ b16 r.refused ++ epochField s1) s1

/-- R199: the abandonment count of an open load has reached 64. -/
def abandonDue (r : LoadRec) : Bool := 64 ≤ r.abandon

/-- R199: an open load whose abandonment count stands at 64 is abandoned. -/
def abandonIfDue (s : State) : State :=
  match s.mgmt.load with
  | .opened r => if abandonDue r then abandonLoad r s else s
  | .closed _ => s

/-- R199: the abandonment count of an open load rises by one. -/
def countLoad : Load → Load
  | .opened r => .opened { r with abandon := r.abandon + 1 }
  | .closed m => .closed m

/-- R191: a requester entry at a switch point. -/
def countRequester (e : ReqEntry) : ReqEntry := { e with count := min (e.count + 1) 2 }

/-- R191, R199: the Management Responder at a switch point. -/
def mgmtSwitchPoint (s : State) : State :=
  abandonIfDue (s.modMgmt fun m =>
    { m with load := countLoad m.load, requesters := vmap (Option.map countRequester) m.requesters })

/-- R36: "switch point, epoch E", delivered to every block in the order of R36's table (log 6). -/
def deliver (e : Epoch) (s : State) : State :=
  mgmtSwitchPoint (lampSwitchPoint e (tallyDelivery e (keySwitchPoint (talkSwitchPoint (routerSwitchPoint e
    (trunkSwitchPoint s))))))

/-! ### Making and acting on switch points (R31 to R35) -/

/-- The Switch Point Unit after a switch point of epoch `e` and origin `o`: the free-run count restarts. -/
def stampEpoch (e : Epoch) (o : SpOrigin) (s : State) : State :=
  s.modSp fun u => { u with epoch := some e, origin := o, freeRun := 0 }

/-- R32, R34: each output takes a mark of epoch `e` in place of one not yet placed. -/
def setMarks (e : Epoch) (relay : Bool) (s : State) : State :=
  s.modTrunk fun t =>
    let m : OutMark := { epoch := e, relay := relay }
    { t with east := { t.east with mark := some m }, west := { t.west with mark := some m } }

/-- R29, R31, R32: the active head makes a switch point. -/
def makeHead (o : SpOrigin) (s : State) : State :=
  let e := nextEpoch s.sp.epoch
  deliver e (setMarks e false ((stampEpoch e o s).modSp fun u => { u with made := true }))

/-- R35, R34: a member that is not an active head makes a local switch point. -/
def makeLocal (c : Epoch) (s : State) : State :=
  let e := c + 1
  deliver e (setMarks e true (stampEpoch e .localFreeRun s))

/-- R33, R34: a marker of epoch `e` is acted on; relay marks are set. An active head of UNKNOWN epoch does the same, "as a
member would" (R31, log 13). -/
def actOnMarker (e : Epoch) (s : State) : State := deliver e (setMarks e true (stampEpoch e .marker s))

/-- R35: some output carries ORIGINATED frames, or both are IDLE. -/
def freeRuns (t : Trunk) : Bool :=
  content t .east == .originated || content t .west == .originated ||
    (content t .east == .idle && content t .west == .idle)

/-- R35: a read marker restarts the free-run count of a path end, acted on or not. -/
def restartFreeRun (s : State) : State :=
  if freeRuns s.trunk then s.modSp fun u => { u with freeRun := 0 } else s

/-- R31, R33, R35: the Trunk Interface hands on the marker of a read frame. -/
def takeMarker (e : Epoch) (s : State) : State :=
  if activeHead s.trunk then (if s.sp.epoch.isNone then actOnMarker e s else s)
  else
    let s1 := restartFreeRun s
    if s1.sp.epoch = some e then s1 else actOnMarker e s1

/-- R31: switch points that fall due are held off. I is read as it stands, and the end of the hold-off, once taken, is
latched in `holdEnded`; R39 says of neither what a write of I does to it (DESIGN CHOICE, log 43). -/
def holdingOff (s : State) : Bool :=
  s.sp.epoch.isNone && !s.sp.holdEnded && s.sp.sinceReset < s.mgmt.params.interval

/-- R29, R31: a switch point that falls due in this period is made. -/
def headMay (s : State) : Bool := !s.sp.made && !holdingOff s

/-! ### The reference (R28, R29) -/

/-- R29: a pulse schedules a switch point O frames later, while the list has room. -/
def schedulePulse (offset : Nat) (l : List Nat) : List Nat := if l.length < 16 then l ++ [offset] else l

/-- R28: the pulse takes a LOST reference to OK and reports it. -/
def restoreReference (s : State) : State :=
  if s.sp.ref = .lost then
    let s1 := s.modSp fun u => { u with ref := .ok }
    report .referenceOk (epochField s1) s1
  else s

/-- R28, R29: a pulse at the active head; a second pulse in a period is ignored. -/
def takePulse (s : State) : State :=
  if activeHead s.trunk && !s.sp.pulseTaken then
    restoreReference (s.modSp fun u =>
      { u with pulseTaken := true, sincePulse := 0, schedule := schedulePulse s.mgmt.params.offset u.schedule })
  else s

/-- R28: twice the interval has passed since the last pulse of an OK reference. -/
def referenceDue (s : State) : Bool :=
  activeHead s.trunk && s.sp.ref == .ok && 2 * s.mgmt.params.interval ≤ s.sp.sincePulse

/-- R28: the reference is lost, when that is due. -/
def loseReference (s : State) : State :=
  if referenceDue s then
    let s1 := s.modSp fun u => { u with ref := .lost }
    report .referenceLost (epochField s1) s1
  else s

/-- R29: the schedule without the first entry that has fallen due; none when none has. -/
def takeDue : List Nat → Option (List Nat)
  | [] => none
  | n :: rest => if n = 0 then some rest else (takeDue rest).map (n :: ·)

/-- R29, R31: the oldest entry that has fallen due leaves the list; its switch point is made unless one stands for it
or the hold-off runs. -/
def scheduledPoint (s : State) : State :=
  if activeHead s.trunk then
    match takeDue s.sp.schedule with
    | none => s
    | some l =>
      let s1 := s.modSp fun u => { u with schedule := l }
      if headMay s1 then makeHead .reference s1 else s1
  else s

/-- R30, R31: a free-run switch point falls due and may be made. -/
def headFreeRunDue (s : State) : Bool :=
  activeHead s.trunk && s.sp.ref == .lost && s.mgmt.params.interval ≤ s.sp.freeRun && headMay s

/-- R31: I frames have passed since pin reset with no epoch known. -/
def holdOffOver (s : State) : Bool :=
  activeHead s.trunk && s.sp.epoch.isNone && s.mgmt.params.interval ≤ s.sp.sinceReset

/-- R35: a local switch point, when one falls due. -/
def localPoint (s : State) : State :=
  if !activeHead s.trunk && freeRuns s.trunk && s.mgmt.params.interval ≤ s.sp.freeRun then
    match s.sp.epoch with
    | none => s
    | some c => makeLocal c s
  else s

/-! ### Commands -/

/-- REFERENCE_PULSE (R28, R29). -/
def execReferencePulse (s : State) : Host.Outcome State Fault Refusal := act takePulse s

/-- REFERENCE_LOST (R28). -/
def execReferenceLost (s : State) : Host.Outcome State Fault Refusal := act loseReference s

/-- SCHEDULED_SWITCH_POINT (R29). -/
def execScheduledSwitchPoint (s : State) : Host.Outcome State Fault Refusal := act scheduledPoint s

/-- HEAD_FREE_RUN (R30). -/
def execHeadFreeRun (s : State) : Host.Outcome State Fault Refusal :=
  act (fun s => if headFreeRunDue s then makeHead .headFreeRun s else s) s

/-- EPOCH_HOLD_OFF_END (R31). -/
def execEpochHoldOffEnd (s : State) : Host.Outcome State Fault Refusal :=
  act (fun s => if holdOffOver s then s.modSp fun u => { u with holdEnded := true } else s) s

/-- LOCAL_SWITCH_POINT (R35). -/
def execLocalSwitchPoint (s : State) : Host.Outcome State Fault Refusal := act localPoint s

end Sys2Proof.Machine
end

