-- ==== Sys2Proof/Machine/Tables.lean ====
section
/-! DEFINITION. The tables and views of the node (R192, R213): SCHED and NODE writes, the write of an entry of any table,
and the bytes of every table and view entry. -/

namespace Sys2Proof.Machine

open Sys2Proof

/-! ### SCHED (R53) -/

/-- The class of a code (R207). -/
def readClass (b : Byte) : Option CellClass := [CellClass.urgent, .talk, .reply, .event][b.toNat]?

/-- R53: an accepted write sets both schedule indexes to 0. -/
def storeSched (f : CellEngine → CellEngine) (s : State) : State × Code :=
  (s.modCells fun c => { f c with cwIndex := 0, ccwIndex := 0 }, .ok)

/-- R53: the schedule length is written. -/
def writeSchedLength (n : Nat) (s : State) : State × Code :=
  if n = 0 || 32 < n then (s, .invalid) else storeSched (fun c => { c with schedLen := n }) s

/-- R53: a class entry is written. -/
def writeSchedClass (i : Fin 32) (b : Byte) (s : State) : State × Code :=
  match readClass b with
  | none => (s, .invalid)
  | some k => storeSched (fun c => { c with sched := c.sched.set i k }) s

/-- R53, R192: a SCHED entry: index 0 the length, 1..32 the class entries. The index is judged first (DESIGN CHOICE,
log 48). -/
def writeSched (index : Nat) (entry : List Byte) (s : State) : State × Code :=
  if index = 0 then writeSchedLength (byteAt entry 0).toNat s
  else
    match asFin 32 (index - 1) with
    | none => (s, .range)
    | some i => writeSchedClass i (byteAt entry 0) s

/-! ### NODE (R193) -/

/-- The six parameters, in index order (R193). -/
inductive Param where
  | ctrl | lease | interval | offset | flash | hold
  deriving DecidableEq, Repr

/-- The parameter of an index. -/
def paramOf (index : Nat) : Option Param := [Param.ctrl, .lease, .interval, .offset, .flash, .hold][index]?

/-- R193: the values of a parameter. -/
def paramOk (p : Param) (v : Nat) : Bool :=
  match p with
  | .ctrl => v ≤ 63
  | .lease => 8 ≤ v && v ≤ 255
  | .interval => 400 ≤ v && v ≤ 4800
  | .offset => v ≤ 4799
  | .flash => v == 2 || v == 4 || v == 8 || v == 16 || v == 32
  | .hold => 1 ≤ v && v ≤ 255

/-- The value a parameter holds. -/
def paramGet (x : Params) : Param → Nat
  | .ctrl => x.ctrl | .lease => x.lease | .interval => x.interval | .offset => x.offset | .flash => x.flash
  | .hold => x.hold

/-- A parameter set. -/
def paramSet (p : Param) (v : Nat) (x : Params) : Params :=
  match p with
  | .ctrl => { x with ctrl := v }
  | .lease => { x with lease := v }
  | .interval => { x with interval := v }
  | .offset => { x with offset := v }
  | .flash => { x with flash := v }
  | .hold => { x with hold := v }

/-- A value of a parameter stored, with what its rule does at once: a lease clamps countdowns and leases (R99); the
other rules read the value when they next compare. -/
def storeParam (p : Param) (v : Nat) (s : State) : State :=
  let s1 := s.modMgmt fun m => { m with params := paramSet p v m.params }
  if p = .lease then applyLease v s1 else s1

/-- R193: a NODE parameter is written; the value already held changes nothing. -/
def writeParam (p : Param) (v : Nat) (s : State) : State × Code :=
  if !paramOk p v then (s, .invalid)
  else if paramGet s.mgmt.params p = v then (s, .ok)
  else (storeParam p v s, .ok)

/-- R193: a NODE entry; its index is judged before its value (DESIGN CHOICE, log 48). -/
def writeNode (index : Nat) (entry : List Byte) (s : State) : State × Code :=
  match paramOf index with
  | none => (s, .range)
  | some p => writeParam p (halfAt entry 0).toNat s

/-! ### The write of an entry (R192, R195 step 4) -/

/-- R192: the owning chapter judges and stores an entry. An entry shorter than its layout is INVALID (log 29). -/
def writeEntry (t : Table) (index : Nat) (entry : List Byte) (s : State) : State × Code :=
  if entry.length < entrySize t then (s, .invalid)
  else
    match t with
    | .route => writeRoute index entry s
    | .mix => writeMix index entry s
    | .conf => writeConf index entry s
    | .keymap => writeKeyMap index entry s
    | .key => writeKey index entry s
    | .camera => writeCamera index entry s
    | .tallymap => writeTallymap index entry s
    | .line => writeLine index entry s
    | .subst => writeSubst index entry s
    | .gpi => writeGpi index entry s
    | .sched => writeSched index entry s
    | .node => writeNode index entry s

/-! ### Entries as bytes (R213)

Absent fields follow R207 and log 14. -/

/-- An index taken round a table of `n + 1` entries. -/
def atIx {α : Type} {n : Nat} (v : Vector α (n + 1)) (i : Nat) : α := v[(⟨i % (n + 1), Nat.mod_lt _ (by omega)⟩ : Fin (n + 1))]

/-- R213, ROUTE. An absent source is 0xFFFF and an absent address 0 (R207); the target of an entry without a pending part
has no absent value in R207 and reads 0xFFFF (DESIGN CHOICE, log 14). -/
def routeBytes (e : RouteEntry) : List Byte :=
  [optByte e.slot, flagByte e.collision] ++ sourceBytes e.active ++ [protCode e.prot, (ownerOf e.prot).getD 0] ++
    match e.pending with
    | none => [0xFF, 0xFF, 0xFF, 0xFF, 0]
    | some p => sourceBytes p.source ++ targetBytes p.target ++ [p.requester]

/-- R213, MIX. -/
def mixBytes (r : MixRec) : List Byte :=
  [flagByte r.ifb] ++ pointBytes r.point ++ [optByte r.own, b8 r.subs.length] ++
    (List.range 4).map (fun k => ((r.subs[k]?).map fun c => b8 c.val).getD 0) ++ b16 r.talkGain ++ b16 r.listen ++
    sourceOptBytes r.prog ++ b16 r.full ++ b16 r.dim ++ b16 r.step ++ [b8 r.threshold] ++ b16 r.g ++
    [flagByte r.clipped]

/-- R213, KEYMAP. -/
def keyMapBytes (k : KeyMap) : List Byte :=
  [k.panelId, b8 k.listen.val, b8 k.slot.val] ++ pointBytes k.point ++ [b8 k.prio.val]

/-- R213, the function of a KEY and its four target bytes. -/
def keyFnBytes : KeyFn → List Byte
  | .none => [0, 0, 0, 0, 0]
  | .talkPoint p => [1] ++ b16 p.val ++ [0, 0]
  | .talkConf c => [2] ++ b16 c.val ++ [0, 0]
  | .talkTally b cap => [3, b8 b.val, b8 cap, 0, 0]
  | .listenConf c => [4] ++ b16 c.val ++ [0, 0]
  | .call p d => [5] ++ b16 p.val ++ [b8 d, 0]
  | .route node d x => [6, node, b8 d.val] ++ sourceBytes x

/-- R213, KEY. -/
def keyEntryBytes (e : KeyEntry) : List Byte :=
  keyFnBytes e.fn ++ [keyModeCode e.mode, flagByte e.invert, b8 e.debounce, keyReportCode e.report, colourCode e.colour]

/-- R213, a term of a TALLYMAP record; what its drive does not use reads as 0 (DESIGN CHOICE, log 51). -/
def termBytes (x : Term) : List Byte :=
  let air : Byte := if x.air then 0x80 else 0
  [b8 x.bus.val, x.source] ++
    match x.drive with
    | .dim n => [air ||| 1, b8 n, 0]
    | .flash a b => [air ||| 2, b8 a, b8 b]
    | _ => [air, 0, 0]

/-- R213, TALLYMAP; terms beyond the count read as 0. -/
def tallyBytes (r : TallyRec) : List Byte :=
  [b8 r.terms.length] ++ pointBytes r.callPoint ++
    (List.range 4).flatMap fun k => ((r.terms[k]?).map termBytes).getD [0, 0, 0, 0, 0]

/-- R213, LINE. -/
def lineBytes (x : LampLine) : List Byte :=
  [lineRoleCode x.role, faultModeCode x.mode, flagByte x.autoSpare, faultStateCode x.fault, b8 x.count]

/-- R213, GPI. -/
def gpiBytes (g : GpiEntry) : List Byte :=
  [flagByte g.enable, flagByte g.invert, b8 g.debounce, flagByte g.latch, g.source]

/-- R192: the value of a parameter index. -/
def paramValue (x : Params) (index : Nat) : Nat := ((paramOf index).map (paramGet x)).getD 0

/-- R213: an entry of a table. -/
def tableBytes (s : State) (t : Table) (i : Nat) : List Byte :=
  match t with
  | .route => routeBytes (atIx s.router.routes i)
  | .mix => mixBytes (atIx s.mix.recs i)
  | .conf => [flagByte (atIx s.talk.confs i).home]
  | .keymap => keyMapBytes (atIx s.panel.maps i)
  | .key => keyEntryBytes (atIx s.panel.entries i)
  | .camera => pointBytes (atIx s.tally.camera i)
  | .tallymap => tallyBytes (atIx s.tally.map i)
  | .line => lineBytes (atIx s.lamp.lines i)
  | .subst => [optByte (linkOf s.lamp (⟨i % 40, Nat.mod_lt _ (by omega)⟩ : LampId))]
  | .gpi => gpiBytes (atIx s.tally.gpi i)
  | .sched => if i = 0 then [b8 s.cells.schedLen] else [classCode (schedAt s.cells (i - 1))]
  | .node => b16 (paramValue s.mgmt.params i)

/-- R213, ORIGINS. An absent sub-index reads 0xFF, an unoccupied entry zeros (DESIGN CHOICE, log 14). -/
def originBytes : Option OriginEntry → List Byte
  | none => List.replicate 14 0
  | some e =>
    [1, b8 e.map.val, b8 e.key.val, optByte e.sub] ++ talkTargetBytes e.target ++ pointBytes e.point ++
      [b8 e.slot.val, b8 e.prio.val, originStateCode e.state, b8 e.countdown, b8 e.unanswered]

/-- R213, TALKERS: position `i mod 8` of list `i div 8`. The authority bit of a direct list, and the talker fields of an
empty position, are 0 (DESIGN CHOICE, log 14). -/
def talkerBytes (s : State) (i : Nat) : List Byte :=
  let n := i / 8
  let conf := atIx s.talk.confs (n - 24)
  let home : Byte := if 24 ≤ n && conf.home then 2 else 0
  let point := if n < 24 then (atIx s.mix.recs n).point else none
  let list := if n < 24 then atIx s.talk.direct n else conf.list
  match list[i % 8]? with
  | none => [home] ++ pointBytes point ++ List.replicate 7 0
  | some t =>
    [home ||| 1] ++ pointBytes point ++ [t.node, b8 t.origin.val] ++ pointBytes t.point ++
      [b8 t.slot.val, b8 t.prio.val, b8 t.lease]

/-- R213, BUSES: the active set at `bus × 2`, the pending part at `bus × 2 + 1`. Bytes 0 and 1 of an active set, and every
byte of an absent pending part, are 0 (DESIGN CHOICE, log 14). -/
def busBytes (b : Bus) (pending : Bool) : List Byte :=
  if pending then
    match b.pending with
    | none => List.replicate 34 0
    | some (set, .epoch e) => [1, e] ++ bitmap 32 set.toNat
    | some (set, .next) => [3, 0] ++ bitmap 32 set.toNat
  else [0, 0] ++ bitmap 32 b.active.toNat

/-- R213, CALLS; the points of an empty position read 0 (DESIGN CHOICE, log 14). -/
def callBytes : Option Call → List Byte
  | none => List.replicate 5 0
  | some c => b16 c.target.val ++ b16 c.caller.val ++ [b8 c.remaining]

/-- R192: the counters in index order. -/
def counterList (s : State) : List Nat :=
  [s.trunk.east.badHeaders, s.trunk.east.badCells, s.trunk.west.badHeaders, s.trunk.west.badCells,
    s.cells.loss.urgent, s.cells.loss.talk, s.cells.loss.reply, s.cells.loss.event,
    s.cells.undeliverable.urgent, s.cells.undeliverable.talk, s.cells.undeliverable.reply,
    s.cells.undeliverable.event, s.cells.unknownKind, s.cells.malformed, s.cells.misaddressed] ++
    s.panel.lines.toList.map (·.badScans) ++ [s.tally.rejects]

/-- R213: an entry of a view. -/
def viewBytes (s : State) (v : View) (i : Nat) : List Byte :=
  match v with
  | .origins => originBytes (atIx s.talk.origins i)
  | .talkers => talkerBytes s i
  | .buses => busBytes (atIx s.tally.buses (i / 2)) (i % 2 == 1)
  | .calls => callBytes s.tally.calls[i]?
  | .counters => b16 ((counterList s)[i]?.getD 0)

/-- R194: `count` entries from `start` on; after the last of `size` comes entry 0. -/
def entriesFrom (entry : Nat → List Byte) (size start count : Nat) : List Byte :=
  (List.range count).flatMap fun k => entry ((start + k) % size)

end Sys2Proof.Machine
end

