-- ==== Sys2Proof/Machine/Mgmt.lean ====
section
/-! DEFINITION. The Management Responder (10_management_requests.md): what each request does and answers, bulk loads,
status pages, clearing, in-band reset, and the repeat rule. -/

namespace Sys2Proof.Machine

open Sys2Proof

/-- An answer: the reply code and the fields after it (R189, R211). -/
structure Answer where
  code : Code
  fields : List Byte
  deriving DecidableEq, Repr

/-- An answer of a code alone, as every refusal is but that of a TAKE (R211). -/
def plain (c : Code) : Answer := { code := c, fields := [] }

/-! ### QUERY (R194) -/

/-- R194, R207: the reply of a QUERY that passed its tests. `pointer` is the allocation pointer of the ORIGINS view. -/
def queryReply (entry : Nat → List Byte) (size bytes start count : Nat) (pointer : List Byte) : Answer :=
  let n := min count ((35 - pointer.length) / bytes)
  { code := .ok, fields := b16 start ++ [b8 n] ++ pointer ++ entriesFrom entry size start n }

/-- R194: the start index, then the count. -/
def queryTests (size start count : Nat) (good : Answer) : Answer :=
  if size ≤ start then plain .range else if count = 0 || size < count then plain .invalid else good

/-- R194: a QUERY. That of CALLS has no field for the number of entries (R165), which shows in the positions that read
empty (DESIGN CHOICE, log 54). -/
def serveQuery (table : Byte) (start count : Half) (s : State) : Answer :=
  let i := start.toNat
  let n := count.toNat
  match tableOf table, viewOf table with
  | some t, _ => queryTests (tableSize t) i n (queryReply (tableBytes s t) (tableSize t) (entrySize t) i n [])
  | none, some v =>
    let pointer : List Byte := if v = .origins then [b8 s.talk.pointer.val] else []
    queryTests (viewSize v) i n (queryReply (viewBytes s v) (viewSize v) (viewEntrySize v) i n pointer)
  | none, none => plain .unknown

/-! ### SET (R195) -/

/-- R195, R196: the code that refuses a table code that is no table's. -/
def notATable (b : Byte) : Code := if (viewOf b).isSome then .invalid else .unknown

/-- R195: a load of this table is open for another requester. -/
def loadedByOther (l : Load) (t : Table) (src : Byte) : Bool :=
  match l with
  | .opened r => r.table == t && r.requester != src
  | .closed _ => false

/-- R200: the show lock stands against writes of this table. -/
def showLocked (s : State) (t : Table) : Bool := s.mgmt.showLock && t != .sched

/-- R195: a SET. -/
def serveSet (src table : Byte) (index : Half) (entry : List Byte) (s : State) : State × Answer :=
  match tableOf table with
  | none => (s, plain (notATable table))
  | some t =>
    if showLocked s t then (s, plain .locked)
    else if loadedByOther s.mgmt.load t src then (s, plain .busy)
    else
      let r := writeEntry t index.toNat entry s
      (r.1, plain r.2)

/-! ### Bulk loads (R196 to R198) -/

/-- The load record set. -/
def setLoad (l : Load) (s : State) : State := s.modMgmt fun m => { m with load := l }

/-- A load is open. -/
def loadOpenNow (l : Load) : Bool :=
  match l with
  | .opened _ => true
  | .closed _ => false

/-- R196: the record of a load at its opening. -/
def openRecord (src : Byte) (t : Table) (start count : Nat) : LoadRec :=
  { table := t, requester := src, nextIndex := start, declared := if count = 0 then none else some count, judged := 0,
    refused := 0, first := none, nextSeg := 0, lastSeg := none, part := [], abandon := 0 }

/-- R196: a LOAD_OPEN. -/
def serveLoadOpen (src table : Byte) (start count : Half) (s : State) : State × Answer :=
  match tableOf table with
  | none => (s, plain (notATable table))
  | some t =>
    if showLocked s t then (s, plain .locked)
    else if loadOpenNow s.mgmt.load then (s, plain .busy)
    else if tableSize t ≤ start.toNat then (s, plain .range)
    else if tableSize t < start.toNat + count.toNat then (s, plain .range)
    else (setLoad (.opened (openRecord src t start.toNat count.toNat)) s, plain .ok)

/-- R198: an entry is refused: it is counted, and the first refusal is held. -/
def countRefused (c : Code) (r : LoadRec) : LoadRec :=
  { r with refused := r.refused + 1, first := r.first.or (some (c, r.nextIndex)) }

/-- R198: an entry has been judged with code `c`. -/
def countJudged (c : Code) (r : LoadRec) : LoadRec :=
  let r1 := if c = .ok then r else countRefused c r
  { r1 with judged := r.judged + 1, nextIndex := r.nextIndex + 1 }

/-- R198: the bytes held are cut into entries, each judged for the next index. The flag says that the load closes.
`fuel` bounds the entries cut; `full` says that the segment carried 38 bytes. -/
def feedLoad (full : Bool) (fuel : Nat) (bytes : List Byte) (r : LoadRec) (s : State) : State × LoadRec × Bool :=
  match fuel with
  | 0 => (s, { r with part := [] }, false)
  | fuel + 1 =>
    let n := entrySize r.table
    if bytes.length < n then
      if r.declared.isNone && !full then
        (s, if bytes.isEmpty then r else countRefused .invalid { r with part := [] }, true)
      else (s, { r with part := bytes }, false)
    else if r.declared.isNone && tableSize r.table ≤ r.nextIndex then (s, countRefused .range r, true)
    else
      let w := writeEntry r.table r.nextIndex (bytes.take n) s
      let r1 := countJudged w.2 r
      if r.declared = some r1.judged then (w.1, r1, true) else feedLoad full fuel (bytes.drop n) r1 w.1

/-- R211: the fields of a LOAD_DATA reply; without a first refusal its index is 0xFFFF (DESIGN CHOICE, log 14). -/
def loadFields (seg : Byte) (r : LoadRec) (closed : Bool) : List Byte :=
  [seg] ++ b16 r.judged ++ b16 r.refused ++ [flagByte closed] ++
    match r.first with
    | none => [0xFF, 0xFF, 0xFF]
    | some (c, i) => codeByte c :: b16 i

/-- R198: the code of an accepted segment: the load's first refusal. -/
def loadCode (r : LoadRec) : Code := (r.first.map (·.1)).getD .ok

/-- R197, R198: a segment is accepted. -/
def acceptSegment (seg : Byte) (data : List Byte) (r : LoadRec) (s : State) : State × Answer :=
  let bytes := r.part ++ data
  let r0 := { r with abandon := 0, lastSeg := some seg, nextSeg := r.nextSeg + 1, part := [] }
  let x := feedLoad (38 ≤ data.length) (bytes.length + 1) bytes r0 s
  (setLoad (if x.2.2 then .closed (some (r.requester, seg)) else .opened x.2.1) x.1,
    { code := loadCode x.2.1, fields := loadFields seg x.2.1 x.2.2 })

/-- R197, R211: a LOAD_DATA. Its reply carries the fields of the load record wherever a load is open (log 27). -/
def serveLoadData (src seg : Byte) (data : List Byte) (s : State) : State × Answer :=
  match s.mgmt.load with
  | .closed m => (s, plain (if m = some (src, seg) then .ok else .sequence))
  | .opened r =>
    if r.requester ≠ src then (s, { code := .busy, fields := loadFields seg r false })
    else if showLocked s r.table then (s, { code := .locked, fields := loadFields seg r false })
    else if seg = r.nextSeg then acceptSegment seg data r s
    else if r.lastSeg = some seg then
      (setLoad (.opened { r with abandon := 0 }) s, { code := .ok, fields := loadFields seg r false })
    else (s, { code := .sequence, fields := loadFields seg r false })

/-! ### Takes and protection (R67 to R75) -/

/-- R211: the answer to a TAKE. -/
def takeAnswer (a : TakeAnswer) : Answer :=
  { code := a.code
    fields :=
      (match a.pair with | none => 0xFF | some i => b8 i) ::
        match a.target with
        | none => []
        | some t => b8 a.replaced :: targetBytes t }

/-- R67: a TAKE. -/
def serveTake (src : Byte) (m : TakeMsg) (s : State) : State × Answer :=
  let r := takeRequest src m s
  (r.1, takeAnswer r.2)

/-- R211: a destination and its protection; nothing for a destination out of range. -/
def protectionFields (dest : Byte) : Option Protection → List Byte
  | none => []
  | some p => [dest, protCode p]

/-- R72, R211: the reply to a protection request, laid out from the router's answer. That holds the destination's
protection in every outcome (R72); the cell of a refusal has kind and code alone: R211 says so, and layouts are told in its
chapter (DEDUCED, log 28). -/
def protectAnswer (dest : Byte) (r : State × ProtectAnswer) : State × Answer :=
  (r.1, { code := r.2.code, fields := if r.2.code = .ok then protectionFields dest r.2.prot else [] })

/-! ### CLEAR (R202) -/

/-- R22: both ports' counters. -/
def clearPorts (s : State) : State :=
  s.modTrunk fun t =>
    { t with
      east := { t.east with badHeaders := 0, badCells := 0 }, west := { t.west with badHeaders := 0, badCells := 0 } }

/-- R56: the eleven counters of the Cell Engine. -/
def clearCells (s : State) : State :=
  s.modCells fun c =>
    { c with loss := ByClass.all 0, undeliverable := ByClass.all 0, unknownKind := 0, malformed := 0, misaddressed := 0 }

/-- R145: the bad-scan counters. -/
def clearPanels (s : State) : State :=
  s.modPanel fun p => { p with lines := vmap (fun x => { x with badScans := 0 }) p.lines }

/-- R165: the tally reject counter. -/
def clearTally (s : State) : State := s.modTally fun t => { t with rejects := 0 }

/-- `f` when the set names item `i`. -/
def onItem (items i : Nat) (f : State → State) (s : State) : State := if items.testBit i then f s else s

/-- R202: every named item is cleared. -/
def clearItems (items : Nat) (s : State) : State :=
  onItem items 22 Sys2Proof.Machine.clearLampFaults (onItem items 21 clearClipped (onItem items 20 clearCollisions
    (onItem items 19 clearTally (onItem items 18 clearPanels (onItem items 17 clearCells (onItem items 16 clearPorts
      (s.modMgmt fun m => { m with sticky := clearSticky items m.sticky })))))))

/-- R202: a CLEAR; bit 23 is an item that is not known. -/
def serveClear (items : Nat) (s : State) : State × Answer :=
  if items.testBit 23 then (s, plain .invalid) else (clearItems items s, plain .ok)

/-! ### STATUS and IDENTIFY (R201, R212) -/

/-- R212, page 0: the load state; what follows the 0xFF of a closed load is 0 (DESIGN CHOICE, log 14). -/
def loadStateBytes : Load → List Byte
  | .closed _ => [0xFF, 0, 0, 0, 0, 0, 0]
  | .opened r => [tableCode r.table, r.requester] ++ b16 r.nextIndex ++ [r.nextSeg] ++ b16 r.judged

/-- R212, page 0. -/
def page0 (s : State) : List Byte :=
  [roleCode (roleOf s.trunk)] ++ epochBytes s.sp.epoch ++
    [refCode s.sp.ref, spOriginCode s.sp.origin, flagByte s.mgmt.showLock] ++ loadStateBytes s.mgmt.load ++
    bitmap 2 s.mgmt.sticky.toNat ++
    [b8 s.cells.free, b8 s.cells.queues.urgent.length, b8 s.cells.queues.talk.length, b8 s.cells.queues.reply.length,
      b8 s.cells.queues.event.length, b8 s.cells.schedLen, b8 s.cells.cwIndex, b8 s.cells.ccwIndex]

/-- R212, page 1: one port. -/
def portBytes (t : Trunk) (p : Port) : List Byte :=
  let x := portOf t p
  [lockCode x.lock, contentCode (content t p), integrityCode x.integrity] ++ b16 x.badHeaders ++ b16 x.badCells

/-- R212, page 1. -/
def page1 (s : State) : List Byte := portBytes s.trunk .east ++ portBytes s.trunk .west

/-- R212, page 2. The destination of no last refusal, and the panel id of a line that has none, have no absent value in
R207: 0xFF and 0 (DESIGN CHOICE, log 14). -/
def page2 (s : State) : List Byte :=
  (match s.router.lastRefusal with
    | none => [0xFF, 0, 0xFF, 0xFF]
    | some r => [b8 r.dest.val, r.requester] ++ epochBytes r.epoch) ++
    s.panel.lines.toList.flatMap fun x => [lineStateCode x.state, x.panelId.getD 0, optByte x.map]

/-- R212, page 3. -/
def page3 (s : State) : List Byte :=
  bitmap 2 (bitsOf 16 fun i => (atIx s.tally.gpiState i).cond) ++ bitmap 2 (bitsOf 16 fun i => (atIx s.tally.gpiState i).mark)

/-- R212, pages 4 and 5: the byte of a drive; the level bits of a drive other than DIM are 0 (DESIGN CHOICE, log 14). -/
def driveByte : Drive → Byte
  | .off => 0
  | .steady => 0x20
  | .dim n => 0x40 ||| b8 (n % 16)
  | .flash _ _ => 0x60
  | .pulse => 0x80

/-- R212, pages 4 and 5: twenty lamps from `base` on. -/
def pageDrives (base : Nat) (s : State) : List Byte := (List.range 20).map fun i => driveByte (atIx s.tally.drives (base + i))

/-- R182, R212: the number of free spares. -/
def freeSpares (l : LampDriver) : Nat :=
  ((List.finRange 48).filter fun w => l.lines[w].role == .spare && !isLinked l w && l.lines[w].fault != .latched).length

/-- R180, R186: what the status record holds of the Lamp Line Driver: the links in install order, the number of free spares,
and for each line the lamp it carries and its fault state, RETRYING among them. -/
structure LampStatus where
  links : List (LampId × WireId)
  free : Nat
  carried : Vector (Option LampId) 48
  faults : Vector FaultState 48
  deriving DecidableEq, Repr

/-- R180, R186: the status record of the lamp lines as they stand. -/
def lampStatus (l : LampDriver) : LampStatus :=
  { links := l.links, free := freeSpares l, carried := vof 48 fun w => carried l w
    faults := vof 48 fun w => l.lines[w].fault }

/-- R212, page 6. -/
def page6 (r : LampStatus) : List Byte :=
  ((List.range 8).flatMap fun k =>
    match r.links[k]? with
    | none => [0xFF, 0xFF]
    | some x => [b8 x.1.val, b8 x.2.val]) ++ [b8 r.links.length, b8 r.free]

/-- R212, page 7: the field of a line. -/
def carriedField (r : LampStatus) (w : Nat) : Nat :=
  match atIx r.carried w with
  | none => 63
  | some j => j.val

/-- R212, page 7: four six-bit fields as three bytes, the first field in the most significant bits. -/
def pack4 (a b c d : Nat) : List Byte := [b8 (a * 4 + b / 16), b8 (b * 16 + c / 4), b8 (c * 64 + d)]

/-- R212, page 7. -/
def page7 (r : LampStatus) : List Byte :=
  let f := carriedField r
  (List.range 12).flatMap fun k => pack4 (f (4 * k)) (f (4 * k + 1)) (f (4 * k + 2)) (f (4 * k + 3))

/-- R201, R212: a page. Pages 6 and 7 lay out what R212 has of `lampStatus`; the fault states in it (R180) have no byte in
any page and reach a requester by QUERY of LINE (DEDUCED, log 53). -/
def pageBytes (s : State) (page : Byte) : List Byte :=
  match page.toNat with
  | 0 => page0 s
  | 1 => page1 s
  | 2 => page2 s
  | 3 => page3 s
  | 4 => pageDrives 0 s
  | 5 => pageDrives 20 s
  | 6 => page6 (lampStatus s.lamp)
  | _ => page7 (lampStatus s.lamp)

/-- R201: a STATUS. -/
def serveStatus (page : Byte) (s : State) : Answer :=
  if 7 < page.toNat then plain .range else { code := .ok, fields := page :: pageBytes s page }

/-- R201, R211: the identity record. -/
def serveIdentify (s : State) : Answer :=
  { code := .ok
    fields := b16 Config.vendorCode ++ b16 Config.partCode ++
      [b8 Config.dieRevision, s.trunk.addr, flagByte s.trunk.headStrap, roleCode (roleOf s.trunk)] }

/-- R201, R23: the integrity status of both ports returns to CLEAN. -/
def cleanIntegrity (s : State) : State :=
  s.modTrunk fun t =>
    { t with east := { t.east with integrity := .clean }, west := { t.west with integrity := .clean } }

/-! ### In-band reset (R204, R205) -/

/-- R58. -/
def resetCells (c : CellEngine) : CellEngine :=
  { CellEngine.reset with
    tag := c.tag, loss := c.loss, undeliverable := c.undeliverable, unknownKind := c.unknownKind,
    malformed := c.malformed, misaddressed := c.misaddressed }

/-- R79; what the router delivers in the current period stands (R61). -/
def resetRouter (r : Router) : Router := { Router.reset with tdmOut := r.tdmOut, insertions := r.insertions }

/-- R146; the LAMPS message last sent stands. -/
def resetPanel (p : Panel) : Panel :=
  { Panel.reset with lines := vmap (fun x => { PanelLine.reset with badScans := x.badScans, lamps := x.lamps }) p.lines }

/-- R167. -/
def resetTally (t : Tally) : Tally := { Tally.reset with rejects := t.rejects, gpiCount := t.gpiCount, gpiDue := t.gpiDue }

/-- R188. -/
def resetLamp (l : LampDriver) : LampDriver :=
  { LampDriver.reset with periodCount := l.periodCount, periodDue := l.periodDue, senseDue := l.senseDue }

/-- R206. -/
def resetMgmt (m : Mgmt) : Mgmt := { Mgmt.reset with requesters := m.requesters, sticky := m.sticky }

/-- R205: the in-band reset of every block; the Trunk Interface and the Switch Point Unit run on (R26, R40). -/
def inBandReset (s : State) : State :=
  { s with
    cells := resetCells s.cells, router := resetRouter s.router, talk := TalkAuthority.reset, mix := MixEngine.reset,
    panel := resetPanel s.panel, tally := resetTally s.tally, lamp := resetLamp s.lamp, mgmt := resetMgmt s.mgmt }

/-- The entry of a requester. -/
def entryOf (m : Mgmt) (src : Byte) : Option ReqEntry := atIx m.requesters src.toNat

/-- R204: the requester's last served request is a RESET_PREPARE of this switch interval or the last. -/
def prepared (e : Option ReqEntry) : Bool :=
  match e with
  | none => false
  | some e => e.kind == 12 && decide (e.count ≤ 1)

/-- R204: a RESET_EXECUTE. -/
def serveExecute (src : Byte) (s : State) : State × Answer :=
  if prepared (entryOf s.mgmt src) then (inBandReset s, plain .ok) else (s, plain .sequence)

/-! ### Service and repeats (R189, R191) -/

/-- R189: a request is served. -/
def serve (src : Byte) (r : Request) (s : State) : State × Answer :=
  match r with
  | .query table start count => (s, serveQuery table start count s)
  | .set table index entry => serveSet src table index entry s
  | .loadOpen table start count => serveLoadOpen src table start count s
  | .loadData seg data => serveLoadData src seg data s
  | .take m => serveTake src m s
  | .protect dest mode => protectAnswer dest (routerProtect src dest mode s)
  | .release dest => protectAnswer dest (routerRelease src dest s)
  | .airlock dest => protectAnswer dest (routerAirlock src dest s)
  | .showLock => (s.modMgmt fun m => { m with showLock := true }, plain .ok)
  | .clear items => serveClear items s
  | .status page => (s, serveStatus page s)
  | .identify => (s, serveIdentify s)
  | .resetPrepare => (s, plain .ok)
  | .resetExecute => serveExecute src s
  | .unknown _ => (s, plain .unknown)
  | .short k => (s, { code := .invalid, fields := if k = 4 then [0xFF] else [] })

/-- R191: the requester's entry is written. -/
def writeRequester (src : Byte) (e : ReqEntry) (s : State) : State :=
  s.modMgmt fun m => { m with requesters := m.requesters.set (src.toNat % 64) (some e) (Nat.mod_lt _ (by omega)) }

/-- R201: a STATUS of page 1, whose reply returns link integrity to CLEAN. -/
def isPage1 : Request → Bool
  | .status p => p == 1
  | _ => false

/-- R189, R191: the requester's entry is written and the REPLY cell is created; the second component tells whether it
was. `reply` is the code byte and the fields. -/
def answer (src tag kind : Byte) (reply : List Byte) (s : State) : State × Option Byte :=
  createCell .reply src (some tag) (kind :: reply)
    (writeRequester src { kind := kind, tag := tag, reply := reply, count := 0 } s)

/-- R189, R191: a request that is no repeat is served, recorded and answered; cells and reports of the service come before
its REPLY (DESIGN CHOICE, log 7). -/
def serveNew (src tag : Byte) (r : Request) (s : State) : State :=
  let x := serve src r s
  let y := answer src tag (requestCode r) (codeByte x.2.code :: x.2.fields) x.1
  if isPage1 r && y.2.isSome then cleanIntegrity y.1 else y.1

/-- R191: the request repeats its requester's last served one. -/
def isRepeatOf (tag : Byte) (r : Request) (e : ReqEntry) : Bool := e.kind == requestCode r && e.tag == tag

/-- R189, R191: a REQUEST from `src`. A repeat leaves link integrity as it stands, also that of a page 1 STATUS whose first
REPLY was lost for want of a buffer (DESIGN CHOICE, log 60). -/
def takeRequestCell (src tag : Byte) (r : Request) (s : State) : State :=
  match entryOf s.mgmt src with
  | some e =>
    if isRepeatOf tag r e then sendCell .reply src (some tag) (requestCode r :: e.reply) s else serveNew src tag r s
  | none => serveNew src tag r s

end Sys2Proof.Machine
end

