-- ==== Sys2Proof/Machine/Receive.lean ====
section
/-! DEFINITION. Cells received (03_cells_and_queues.md): the tests of the Cell Engine and the hand-over to the blocks. -/

namespace Sys2Proof.Machine

open Sys2Proof

/-- R41: the destinations with which a kind is accepted: 63 or this node, this node alone, or none. -/
def destOk (k : CellKind) (dest addr : Byte) : Bool :=
  match k with
  | .event => false
  | .request | .reply | .talkReply => dest == addr
  | _ => dest == 63 || dest == addr

/-- What the tests of R44 make of a cell. -/
inductive CellTest where
  | pass (k : CellKind)
  | unknownKind
  | malformed
  | misaddressed
  deriving DecidableEq, Repr

/-- R44: the tests, in order. -/
def testCell (addr : Byte) (c : Cell) : CellTest :=
  match kindOf c.kind with
  | none => .unknownKind
  | some k =>
    if !sourceOk c.src || !lengthOk k c.len.toNat then .malformed
    else if destOk k c.dest addr then .pass k
    else .misaddressed

/-- R56: the unknown-kind counter rises. -/
def countUnknown (s : State) : State := s.modCells fun c => { c with unknownKind := satAdd c.unknownKind 1 }
/-- R56: the malformed counter rises. -/
def countMalformed (s : State) : State := s.modCells fun c => { c with malformed := satAdd c.malformed 1 }
/-- R56: the misaddressed counter rises. -/
def countMisaddressed (s : State) : State := s.modCells fun c => { c with misaddressed := satAdd c.misaddressed 1 }

/-- R41, R44: a cell that passed the tests is handed to the block of its kind. -/
def handCell (k : CellKind) (c : Cell) (s : State) : State :=
  let p := c.payload
  match k with
  | .talkOn => takeTalkOn c.src c.tag (readTalkOn p) s
  | .talkOff => takeTalkOff c.src (readTalkOff p) s
  | .talkReply => takeTalkReply (readTalkReply p) s
  | .confOn => takeConfOn (readConfOn p) s
  | .confOff => takeConfOff (readConfOff p) s
  | .call => takeCall (readCall p) s
  | .callCancel => takeCancel (readCancel p) s
  | .tallySet => takeTallySet c.src (readTallySet p) s
  | .request => takeRequestCell c.src c.tag (readRequest p) s
  | .reply => takeReply c.src c.tag (readReply p) s
  | .event => s

/-- R44: a cell handed to the Cell Engine. -/
def receiveCell (c : Cell) (s : State) : State :=
  match testCell s.trunk.addr c with
  | .pass k => handCell k c s
  | .unknownKind => countUnknown s
  | .malformed => countMalformed s
  | .misaddressed => countMisaddressed s

/-- R17, R44: a well-formed cell from `src` that is addressed so as to be accepted: the node's own is stripped, and a
source outside 1..62 is malformed. -/
def fromCell (src : Byte) (f : State → State) (s : State) : State :=
  if src = s.trunk.addr then s else if sourceOk src then f s else countMalformed s

end Sys2Proof.Machine
end

