-- ==== Sys2Proof/Machine/CellCommands.lean ====
section
/-! DEFINITION. The commands of received cells (R41, R44) and of the counts that switch points run down (R85, R95, R140,
R143, R163, R199). -/

namespace Sys2Proof.Machine

open Sys2Proof

/-! ### Received cells -/

/-- TALK_ON (R91, R92). -/
def execTalkOn (src tag : Byte) (m : TalkOnMsg) (s : State) : Host.Outcome State Fault Refusal :=
  act (fromCell src (takeTalkOn src tag m)) s

/-- TALK_OFF (R94). The tag is not used. -/
def execTalkOff (src _tag : Byte) (m : TalkOffMsg) (s : State) : Host.Outcome State Fault Refusal :=
  act (fromCell src (takeTalkOff src m)) s

/-- TALK_REPLY (R86). The tag is not used. -/
def execTalkReply (src _tag : Byte) (m : TalkReplyMsg) (s : State) : Host.Outcome State Fault Refusal :=
  act (fromCell src (takeTalkReply m)) s

/-- CONF_ON (R97). The tag is not used. -/
def execConfOn (src _tag : Byte) (m : ConfOnMsg) (s : State) : Host.Outcome State Fault Refusal :=
  act (fromCell src (takeConfOn m)) s

/-- CONF_OFF (R98). The tag is not used. -/
def execConfOff (src _tag : Byte) (m : ConfOffMsg) (s : State) : Host.Outcome State Fault Refusal :=
  act (fromCell src (takeConfOff m)) s

/-- CALL (R161). The tag is not used. -/
def execCall (src _tag : Byte) (m : CallMsg) (s : State) : Host.Outcome State Fault Refusal :=
  act (fromCell src (takeCall m)) s

/-- CALL_CANCEL (R162). The tag is not used. -/
def execCallCancel (src _tag : Byte) (m : CancelMsg) (s : State) : Host.Outcome State Fault Refusal :=
  act (fromCell src (takeCancel m)) s

/-- TALLY_SET (R148). The tag is not used. -/
def execTallySet (src _tag : Byte) (m : TallySetMsg) (s : State) : Host.Outcome State Fault Refusal :=
  act (fromCell src (takeTallySet src m)) s

/-- REPLY (R140). -/
def execReply (src tag : Byte) (m : ReplyMsg) (s : State) : Host.Outcome State Fault Refusal :=
  act (fromCell src (takeReply src tag m)) s

/-! ### Counts at their end (log 4)

A switch point runs these counts down and serves those that end, as their rules say. Each command below serves one
count that stands at its end. -/

/-- R85: the entry is resent when its countdown stands at 0. -/
def resendIfDue (idx : OriginId) (s : State) : State := if resendDue s.talk idx then resendOrigin idx s else s

/-- ORIGIN_RESEND (R85). -/
def execOriginResend (idx : OriginId) (s : State) : Host.Outcome State Fault Refusal := act (resendIfDue idx) s

/-- R95: the talker's lease stands at 0. -/
def leaseOver (l : ListId) (node : Byte) (idx : OriginId) (t : TalkAuthority) : Bool :=
  (listOf t l).any fun x => isTalker node idx x && x.lease == 0

/-- R95: the talker expires when its lease stands at 0. -/
def expireIfDue (l : ListId) (node : Byte) (idx : OriginId) (s : State) : State :=
  if leaseOver l node idx s.talk then expireTalker l node idx s else s

/-- LEASE_EXPIRY (R95). -/
def execLeaseExpiry (l : ListId) (node : Byte) (idx : OriginId) (s : State) : Host.Outcome State Fault Refusal :=
  act (expireIfDue l node idx) s

/-- R163: the call's remaining count stands at 0. -/
def callOver (target caller : PointId) (t : Tally) : Bool := t.calls.any fun c => isCall target caller c && c.remaining == 0

/-- R163, R159: the call is removed when its count stands at 0, and the lamps of its target are resolved. -/
def endCallIfDue (target caller : PointId) (s : State) : State :=
  if callOver target caller s.tally then resolveFor target (modCalls (dropCall target caller) s) else s

/-- CALL_EXPIRY (R163). -/
def execCallExpiry (target caller : PointId) (s : State) : Host.Outcome State Fault Refusal :=
  act (endCallIfDue target caller) s

/-- R143: a refusal window that stands at 0 ends. -/
def endWindow (x : KeyState) : KeyState := if x.window = some 0 then { x with window := none } else x

/-- KEY_WINDOW_END (R143). -/
def execKeyWindowEnd (m : MapId) (k : KeyId) (s : State) : Host.Outcome State Fault Refusal :=
  act (modKey m k endWindow) s

/-- R140: the countdown of a route state stands at 0. -/
def routeOver : RouteKey → Bool
  | .idle => false
  | .awaiting _ _ n => n == 0
  | .confirm n => n == 0
  | .refused n => n == 0

/-- R140: a route state whose countdown stands at 0 goes on. -/
def endRouteIfDue (x : KeyState) : KeyState := if routeOver x.route then { x with route := endRoute x.route } else x

/-- ROUTE_COUNTDOWN_END (R140). -/
def execRouteCountdownEnd (m : MapId) (k : KeyId) (s : State) : Host.Outcome State Fault Refusal :=
  act (modKey m k endRouteIfDue) s

/-- LOAD_ABANDONED (R199). -/
def execLoadAbandoned (s : State) : Host.Outcome State Fault Refusal := act abandonIfDue s

end Sys2Proof.Machine
end

