-- ==== Sys2Proof/Machine/LocalCommands.lean ====
section
/-! DEFINITION. The commands of the local ports: lamp periods and fault senses (09), GPIs (08), panel lines and keys (07).
On a pass-through repeater none has an effect (R2). -/

namespace Sys2Proof.Machine

open Sys2Proof

/-- LAMP_PERIOD_START (R175, R180). -/
def execLampPeriodStart (s : State) : Host.Outcome State Fault Refusal := act lampPeriodStart s

/-- FAULT_SENSE (R180 to R183). -/
def execFaultSense (reads : BitVec 48) (s : State) : Host.Outcome State Fault Refusal := act (takeFaultReads reads) s

/-- GPI_SAMPLE (R152). -/
def execGpiSample (closed : BitVec 16) (s : State) : Host.Outcome State Fault Refusal := act (takeGpiSample closed) s

/-- SCAN (R122 to R142). -/
def execScan (i : LineId) (bytes : List Byte) (s : State) : Host.Outcome State Fault Refusal := act (takeScan i bytes) s

/-- AUTO_HOLD_REACHED (R132). -/
def execAutoHoldReached (m : MapId) (k : KeyId) (s : State) : Host.Outcome State Fault Refusal :=
  act (fun s => modKey m k (holdReached s.mgmt.params.hold) s) s

/-- PANEL_TIMEOUT (R126). -/
def execPanelTimeout (i : LineId) (s : State) : Host.Outcome State Fault Refusal := act (timeoutLine i) s

end Sys2Proof.Machine
end

