-- ==== Sys2Proof/Machine/RequestCommands.lean ====
section
/-! DEFINITION. The commands of management requests (10_management_requests.md): each is a REQUEST cell from `src` with
`tag`, judged as a received cell (R17, R44), then served or answered as a repeat (R189, R191). -/

namespace Sys2Proof.Machine

open Sys2Proof

/-- A REQUEST cell addressed to this node. -/
def request (src tag : Byte) (r : Request) (s : State) : Host.Outcome State Fault Refusal :=
  act (fromCell src (takeRequestCell src tag r)) s

/-- A SET of an entry of a table (R195). -/
def setEntry (t : Table) (src tag : Byte) (index : Half) (entry : List Byte) (s : State) :
    Host.Outcome State Fault Refusal :=
  request src tag (.set (tableCode t) index entry) s

/-- A SET of a NODE parameter (R193). -/
def setParam (index : Nat) (src tag : Byte) (value : Half) (s : State) : Host.Outcome State Fault Refusal :=
  request src tag (.set (tableCode .node) (BitVec.ofNat 16 index) (halfBytes value)) s

/-- A CLEAR of one item (R202). -/
def clearItem (item : Nat) (src tag : Byte) (s : State) : Host.Outcome State Fault Refusal :=
  request src tag (.clear (2 ^ item)) s

/-- QUERY (R194). -/
def execQuery (src tag table : Byte) (start count : Half) (s : State) : Host.Outcome State Fault Refusal :=
  request src tag (.query table start count) s

/-- ROUTE_WRITE (R65). -/
def execRouteWrite (src tag : Byte) (index : Half) (entry : List Byte) (s : State) :
    Host.Outcome State Fault Refusal :=
  setEntry .route src tag index entry s

/-- MIX_WRITE (R105, R106). -/
def execMixWrite (src tag : Byte) (index : Half) (entry : List Byte) (s : State) :
    Host.Outcome State Fault Refusal :=
  setEntry .mix src tag index entry s

/-- CONF_WRITE (R81). -/
def execConfWrite (src tag : Byte) (index : Half) (entry : List Byte) (s : State) :
    Host.Outcome State Fault Refusal :=
  setEntry .conf src tag index entry s

/-- KEYMAP_WRITE (R128). -/
def execKeymapWrite (src tag : Byte) (index : Half) (entry : List Byte) (s : State) :
    Host.Outcome State Fault Refusal :=
  setEntry .keymap src tag index entry s

/-- KEY_WRITE (R129). -/
def execKeyWrite (src tag : Byte) (index : Half) (entry : List Byte) (s : State) :
    Host.Outcome State Fault Refusal :=
  setEntry .key src tag index entry s

/-- CAMERA_WRITE (R155). -/
def execCameraWrite (src tag : Byte) (index : Half) (entry : List Byte) (s : State) :
    Host.Outcome State Fault Refusal :=
  setEntry .camera src tag index entry s

/-- TALLYMAP_WRITE (R157). -/
def execTallymapWrite (src tag : Byte) (index : Half) (entry : List Byte) (s : State) :
    Host.Outcome State Fault Refusal :=
  setEntry .tallymap src tag index entry s

/-- LINE_WRITE (R168). -/
def execLineWrite (src tag : Byte) (index : Half) (entry : List Byte) (s : State) :
    Host.Outcome State Fault Refusal :=
  setEntry .line src tag index entry s

/-- SUBST_WRITE (R171). -/
def execSubstWrite (src tag : Byte) (index : Half) (entry : List Byte) (s : State) :
    Host.Outcome State Fault Refusal :=
  setEntry .subst src tag index entry s

/-- GPI_WRITE (R151). -/
def execGpiWrite (src tag : Byte) (index : Half) (entry : List Byte) (s : State) :
    Host.Outcome State Fault Refusal :=
  setEntry .gpi src tag index entry s

/-- SCHED_WRITE (R53). -/
def execSchedWrite (src tag : Byte) (index : Half) (entry : List Byte) (s : State) :
    Host.Outcome State Fault Refusal :=
  setEntry .sched src tag index entry s

/-- CONTROLLER_ADDRESS_WRITE (R193). -/
def execControllerAddressWrite (src tag : Byte) (value : Half) (s : State) : Host.Outcome State Fault Refusal :=
  setParam 0 src tag value s

/-- LEASE_WRITE (R99). -/
def execLeaseWrite (src tag : Byte) (value : Half) (s : State) : Host.Outcome State Fault Refusal :=
  setParam 1 src tag value s

/-- FREE_RUN_INTERVAL_WRITE (R39). -/
def execFreeRunIntervalWrite (src tag : Byte) (value : Half) (s : State) : Host.Outcome State Fault Refusal :=
  setParam 2 src tag value s

/-- SWITCH_OFFSET_WRITE (R39). -/
def execSwitchOffsetWrite (src tag : Byte) (value : Half) (s : State) : Host.Outcome State Fault Refusal :=
  setParam 3 src tag value s

/-- FLASH_CYCLE_WRITE (R177). -/
def execFlashCycleWrite (src tag : Byte) (value : Half) (s : State) : Host.Outcome State Fault Refusal :=
  setParam 4 src tag value s

/-- HOLD_THRESHOLD_WRITE (R132). -/
def execHoldThresholdWrite (src tag : Byte) (value : Half) (s : State) : Host.Outcome State Fault Refusal :=
  setParam 5 src tag value s

/-- LOAD_OPEN (R196). -/
def execLoadOpen (src tag table : Byte) (start count : Half) (s : State) : Host.Outcome State Fault Refusal :=
  request src tag (.loadOpen table start count) s

/-- LOAD_DATA (R197, R198). -/
def execLoadData (src tag seg : Byte) (data : List Byte) (s : State) : Host.Outcome State Fault Refusal :=
  request src tag (.loadData seg data) s

/-- TAKE (R67 to R69). -/
def execTake (src tag : Byte) (m : TakeMsg) (s : State) : Host.Outcome State Fault Refusal :=
  request src tag (.take m) s

/-- PROTECT (R73). -/
def execProtect (src tag dest mode : Byte) (s : State) : Host.Outcome State Fault Refusal :=
  request src tag (.protect dest mode) s

/-- RELEASE (R74). -/
def execRelease (src tag dest : Byte) (s : State) : Host.Outcome State Fault Refusal :=
  request src tag (.release dest) s

/-- AIRLOCK (R75). -/
def execAirlock (src tag dest : Byte) (s : State) : Host.Outcome State Fault Refusal :=
  request src tag (.airlock dest) s

/-- SHOW_LOCK (R200). -/
def execShowLock (src tag : Byte) (s : State) : Host.Outcome State Fault Refusal :=
  request src tag .showLock s

/-- CLEAR_EVENT_FLAG (R202). -/
def execClearEventFlag (src tag : Byte) (event : Fin 16) (s : State) : Host.Outcome State Fault Refusal :=
  clearItem event.val src tag s

/-- CLEAR_PORT_COUNTERS (R22). -/
def execClearPortCounters (src tag : Byte) (s : State) : Host.Outcome State Fault Refusal := clearItem 16 src tag s

/-- CLEAR_CELL_COUNTERS (R56). -/
def execClearCellCounters (src tag : Byte) (s : State) : Host.Outcome State Fault Refusal := clearItem 17 src tag s

/-- CLEAR_PANEL_COUNTERS (R145). -/
def execClearPanelCounters (src tag : Byte) (s : State) : Host.Outcome State Fault Refusal := clearItem 18 src tag s

/-- CLEAR_TALLY_COUNTERS (R165). -/
def execClearTallyCounters (src tag : Byte) (s : State) : Host.Outcome State Fault Refusal := clearItem 19 src tag s

/-- CLEAR_COLLISION_FLAGS (R64). -/
def execClearCollisionFlags (src tag : Byte) (s : State) : Host.Outcome State Fault Refusal := clearItem 20 src tag s

/-- CLEAR_CLIPPED_FLAGS (R119). -/
def execClearClippedFlags (src tag : Byte) (s : State) : Host.Outcome State Fault Refusal := clearItem 21 src tag s

/-- CLEAR_LAMP_FAULTS (R184). -/
def execClearLampFaults (src tag : Byte) (s : State) : Host.Outcome State Fault Refusal := clearItem 22 src tag s

/-- STATUS (R201, R212). -/
def execStatus (src tag page : Byte) (s : State) : Host.Outcome State Fault Refusal :=
  request src tag (.status page) s

/-- IDENTIFY (R201). -/
def execIdentify (src tag : Byte) (s : State) : Host.Outcome State Fault Refusal :=
  request src tag .identify s

/-- RESET_PREPARE (R204). -/
def execResetPrepare (src tag : Byte) (s : State) : Host.Outcome State Fault Refusal :=
  request src tag .resetPrepare s

/-- RESET_EXECUTE (R204, R205). -/
def execResetExecute (src tag : Byte) (s : State) : Host.Outcome State Fault Refusal :=
  request src tag .resetExecute s

/-- UNKNOWN_REQUEST (R189). -/
def execUnknownRequest (src tag kind : Byte) (s : State) : Host.Outcome State Fault Refusal :=
  request src tag (.unknown kind) s

end Sys2Proof.Machine
end

