-- ==== Sys2Proof/Machine/Ring.lean ====
section
/-! DEFINITION. The Trunk Interface (01_the_trunk_ring.md): frames arriving, missing and sent, the sample period, and pin
reset. -/

namespace Sys2Proof.Machine

open Sys2Proof

/-! ### Headship (R10, R11) -/

/-- R11: HEAD_CONFLICT. -/
def reportConflict (rival : Byte) (s : State) : State :=
  report .headConflict ([rival, roleCode (roleOf s.trunk)] ++ epochField s) s

/-- R11, R28: headship is yielded. -/
def yieldHead (s : State) : State :=
  rolesChanged s.trunk ((s.modTrunk fun t => { t with yielded := true }).modSp fun u =>
    { u with ref := .notUsed, schedule := [] })

/-- R11: evidence of a second head. -/
def judgeConflict (f : WireFrame) (s : State) : State :=
  let rival := originator f
  if activeHead s.trunk && headFlag f && rival != s.trunk.addr then
    if rival.toNat < s.trunk.addr.toNat then reportConflict rival (yieldHead s)
    else if s.trunk.conflictReported then s
    else reportConflict rival (s.modTrunk fun t => { t with conflictReported := true })
  else s

/-- R10: the ring mode that a read frame gives. -/
def modeOf (f : WireFrame) : RingMode := if headPassed f then .closed else .opened

/-- R10: the active head reads a frame. -/
def judgeMode (f : WireFrame) (s : State) : State :=
  if activeHead s.trunk && s.trunk.mode != modeOf f then
    reportLinkChange none (rolesChanged s.trunk (s.modTrunk fun t => { t with mode := modeOf f }))
  else s

/-! ### The cell of a read frame (R16, R17) -/

/-- What R17 makes of a taken cell: it stays in the slot of a forwarded frame, it is handed to the Cell Engine, or its
check failed. -/
structure CellFate where
  stays : Bool
  handed : Option Cell
  bad : Bool
  deriving DecidableEq, Repr

/-- R17: the rows, in order. -/
def cellFate (addr : Byte) (slot : List Byte) : CellFate :=
  let r := readCell slot
  let c := r.1
  if !r.2 then { stays := false, handed := none, bad := true }
  else if c.src = addr then { stays := false, handed := none, bad := false }
  else if c.dest = 63 then { stays := true, handed := if (kindOf c.kind).isSome then some c else none, bad := false }
  else if c.dest = addr then { stays := false, handed := some c, bad := false }
  else { stays := true, handed := none, bad := false }

/-- R16: the closing head with both inputs LOCKED ignores the cells of CCW frames. -/
def ignoresCells (t : Trunk) (p : Port) : Bool :=
  closingHead t && isLocked t .east && isLocked t .west && p == .east

/-- R207: the occupancy byte that marks a cell. -/
def hasCell (b : FrameBody) : Bool := b.occupancy == 1

/-- The cell slot free (R207). -/
def freeSlot (b : FrameBody) : FrameBody := { b with occupancy := 0, cell := List.replicate 47 0 }

/-- R16, R17: the fate of the cell of a read frame; none when no cell is taken. -/
def takenCell (t : Trunk) (p : Port) (b : FrameBody) : Option CellFate :=
  if hasCell b && !ignoresCells t p then some (cellFate t.addr b.cell) else none

/-- R17: the body of a read frame as it is forwarded. -/
def forwardBody (fate : Option CellFate) (b : FrameBody) : FrameBody :=
  match fate with
  | none => freeSlot b
  | some x => if x.stays then b else freeSlot b

/-- R22: the bad-cell counter. -/
def countBadCell (p : Port) (fate : Option CellFate) (s : State) : State :=
  match fate with
  | some x => if x.bad then s.modTrunk (modPort p fun y => { y with badCells := satAdd y.badCells 1 }) else s
  | none => s

/-- The cell that is handed to the Cell Engine, if any. -/
def handedCell (fate : Option CellFate) : Option Cell := fate.bind (·.handed)

/-! ### Arrival (R3, R5, R7, R8, R13, R19) -/

/-- R7, R22, R23: a frame is counted. -/
def countFrame (good : Bool) (x : PortState) : PortState :=
  let y := { x with seen := true, idlePeriods := 0, missed := 0 }
  if good then lockGood y else lockBad (integrityBad { y with badHeaders := satAdd y.badHeaders 1 })

/-- R3, R13: a frame of a forwarded direction enters the forwarding buffer of the opposite output. -/
def enterBuffer (p : Port) (f : WireFrame) (s : State) : State :=
  if content s.trunk (other p) = .forwarded then s.modTrunk (modPort (other p) fun x => { x with buffer := some f }) else s

/-- R15: the slots of a read frame are the period's copy. -/
def copySlots (p : Port) (b : FrameBody) (s : State) : State :=
  s.modTrunk (modPort p fun x => { x with copy := some b.slots })

/-- R17, R19: marker and cell of a read frame act. Where both are there, which is first is a free value (log 9). -/
def actOnFrame (marker : Option Epoch) (cell : Option Cell) (s : State) : State :=
  match marker, cell with
  | none, none => s
  | some e, none => takeMarker e s
  | none, some c => receiveCell c s
  | some e, some c =>
    if Config.markerFirst s.freeCount then receiveCell c (takeMarker e s.countChoice)
    else takeMarker e (receiveCell c s.countChoice)

/-- R8: a frame is read. -/
def readFrame (p : Port) (f : WireFrame) (s : State) : State :=
  let s1 := judgeMode f (judgeConflict f s)
  let b := bodyOf f
  let fate := takenCell s1.trunk p b
  let s2 := copySlots p b (countBadCell p fate s1)
  actOnFrame (frameMarker f) (handedCell fate) (enterBuffer p { f with body := some (forwardBody fate b) } s2)

/-- R3 to R19: a frame arrives at a member. -/
def arrive (p : Port) (f : WireFrame) (s : State) : State :=
  let s1 := lockMoved s.trunk p (s.modTrunk (modPort p (countFrame (headerGood f))))
  if headerGood f && isLocked s1.trunk p then
    if isIdle f then enterBuffer p f (judgeConflict f s1) else readFrame p f s1
  else enterBuffer p f s1

/-- R2: a frame passes a repeater. -/
def repeatFrame (p : Port) (f : WireFrame) (s : State) : State :=
  s.modTrunk (modPort (other p) fun x => { x with out := some f })

/-- FRAME_ARRIVAL (R2 to R23). -/
def execFrameArrival (p : Port) (f : WireFrame) (s : State) : Host.Outcome State Fault Refusal :=
  .next (if isMember s.trunk then arrive p f s else repeatFrame p f s)

/-! ### Missing frames (R6) -/

/-- R6, R7: a missing frame falls due: the n-th, n + 1 frame periods after the last frame began. -/
def missingDue (x : PortState) : Bool := x.seen && x.lock != .noSignal && x.missed + 1 < x.idlePeriods

/-- R6, R7, R23: a missing frame is counted. -/
def countMissing (x : PortState) : PortState := lockBad (integrityBad { x with missed := x.missed + 1 })

/-- R6: an input counts a missing frame, when one falls due. -/
def missFrame (p : Port) (s : State) : State :=
  if missingDue (portOf s.trunk p) then lockMoved s.trunk p (s.modTrunk (modPort p countMissing)) else s

/-- MISSING_FRAME (R6, R7). -/
def execMissingFrame (p : Port) (s : State) : Host.Outcome State Fault Refusal := act (missFrame p) s

/-! ### Frames sent (R3, R4, R9, R18, R32, R34, R62, R63) -/

/-- R4, R9: the IDLE frame of this node. -/
def idleFrame (t : Trunk) : WireFrame :=
  sealFrame { kind := 0x5A, orig := t.addr ||| (if activeHead t then 0x80 else 0), marker := 0, epoch := 0, check := 0,
              body := none }

/-- R4, R9: a frame made here, before insertion. -/
def madeFrame (t : Trunk) : WireFrame :=
  { kind := 0xA5, orig := t.addr ||| (if activeHead t then 0xC0 else 0), marker := 0, epoch := 0, check := 0,
    body := some emptyBody }

/-- R4, R9, R207: a forwarded frame with a good header: the active head sets the head-passed mark; spare marker bits
leave as 0 (log 20). -/
def passFrame (t : Trunk) (f : WireFrame) : WireFrame :=
  let g := match frameMarker f with
    | some e => withMarker e f
    | none => { f with marker := 0, epoch := 0 }
  if activeHead t then withPassed g else g

/-- What an output sends. -/
inductive Sending where
  | idle
  | made
  | passed (f : WireFrame)
  | raw (f : WireFrame)
  deriving DecidableEq, Repr

/-- R3, R12: what the next frame of an output is. -/
def sendingOf (t : Trunk) (p : Port) : Sending :=
  match content t p with
  | .idle => .idle
  | .originated => .made
  | .forwarded =>
    match (portOf t p).buffer with
    | none => .made
    | some f => if !headerGood f then .raw f else if isIdle f then .made else .passed f

/-- R32, R34: the mark that the next frame carries. -/
def placedMark (x : Sending) (m : Option OutMark) : Option Epoch :=
  match x, m with
  | .made, some m => some m.epoch
  | .passed _, some m => if m.relay then none else some m.epoch
  | _, _ => none

/-- R32, R34: the mark that the next frame leaves. -/
def leftMark (x : Sending) (m : Option OutMark) : Option OutMark :=
  match x with
  | .raw _ => m.filter fun m => !m.relay
  | _ => none

/-- R63: an insert entry meets a collision. One met by the insertions that stand in the period of an in-band reset marks the
entry that the reset has made (DESIGN CHOICE, log 34). -/
def collide (n : Fin 32) (t : SlotId) (d : Dir) (orig : Byte) (s : State) : State :=
  let dest : DestId := ⟨n.val + 32, by omega⟩
  if s.router.routes[dest].collision then s
  else
    let s1 := modRoute dest (fun e => { e with collision := true }) s
    report .slotCollision ([b8 dest.val, b8 t.val, dirCode d, orig] ++ epochField s1) s1

/-- R62, R63: one insert entry and the frame: `arrived` holds the slots as they arrived, or not valid. -/
def insertOne (arrived : FrameBody) (d : Dir) (orig : Byte) (n : Fin 32) (a : State × FrameBody) : State × FrameBody :=
  match a.1.router.insertions[n] with
  | none => a
  | some (t, x) =>
    if slotValid arrived.slots[t] then (collide n t d orig a.1, a.2)
    else (a.1, { a.2 with slots := a.2.slots.set t { mark := 1, sample := x } })

/-- R62: every insert entry, in ascending order. -/
def insertAll (b : FrameBody) (d : Dir) (orig : Byte) (s : State) : State × FrameBody :=
  forFin 32 (insertOne b d orig) (s, b)

/-- R18: a free cell slot is offered and filled, or leaves free. -/
def offerSlot (d : Dir) (b : FrameBody) (s : State) : State × FrameBody :=
  if hasCell b then (s, b)
  else
    let r := grant d s
    (r.1, match r.2 with
      | some c => { b with occupancy := 1, cell := cellWire c }
      | none => freeSlot b)

/-- R14, R18, R62: the node's insertions into a frame that leaves at `p`. -/
def fillFrame (p : Port) (f : WireFrame) (s : State) : State × WireFrame :=
  let d := portDir p
  if inserts s.trunk d then
    let r := insertAll (bodyOf f) d (originator f) s
    let q := offerSlot d r.2 r.1
    (q.1, { f with body := some q.2 })
  else (s, f)

/-- A marker in the frame, when one is placed, and its check computed. -/
def finishFrame (m : Option Epoch) (f : WireFrame) : WireFrame :=
  sealFrame (match m with | some e => withMarker e f | none => f)

/-- R3: the frame of an output. -/
def buildFrame (p : Port) (s : State) : State × WireFrame :=
  let x := sendingOf s.trunk p
  let m := placedMark x (portOf s.trunk p).mark
  match x with
  | .idle => (s, idleFrame s.trunk)
  | .raw f => (s, f)
  | .made =>
    let r := fillFrame p (madeFrame s.trunk) s
    (r.1, finishFrame m r.2)
  | .passed f =>
    let r := fillFrame p (passFrame s.trunk f) s
    (r.1, finishFrame m r.2)

/-- R3: the output after its frame: the buffer is empty, the mark placed, kept or dropped. -/
def afterSend (x : Sending) (f : WireFrame) (y : PortState) : PortState :=
  { y with buffer := none, mark := leftMark x y.mark, sent := true, out := some f }

/-- R3: an output sends its one frame of the period. -/
def sendFrame (p : Port) (s : State) : State :=
  if (portOf s.trunk p).sent then s
  else
    let x := sendingOf s.trunk p
    let r := buildFrame p s
    r.1.modTrunk (modPort p (afterSend x r.2))

/-- OUTPUT_FRAME_SEND (R3). -/
def execOutputFrameSend (p : Port) (s : State) : Host.Outcome State Fault Refusal := act (sendFrame p) s

/-! ### The sample period (R59, R61, R62, R109, R179) -/

/-- R109: the mix outputs of the period. -/
def mixPeriods (tdm : Vector Sample 32) (s : State) : Vector MixPeriod 24 :=
  vof 24 (mixPeriod s.trunk tdm s.start)

/-- R109 to R119: the Mix Engine after the period. In the period of an in-band reset too the sets of the lists of its start
are handed over (DESIGN CHOICE, log 58). -/
def mixAfter (x : Vector MixPeriod 24) (e : MixEngine) : MixEngine :=
  { recs := vof 24 fun m => afterPeriod x[m] e.recs[m], contrib := vmap (·.set) x }

/-- R61, R62: the Feed Router's deliveries of the period. -/
def routerAfter (tdm : Vector Sample 32) (x : Vector MixPeriod 24) (s : State) : Router :=
  let value := sourceValue s.trunk tdm (vmap mixSample x)
  { s.router with tdmOut := deliverLocal s.start value, insertions := deliverInserts s.start value }

/-- R119: CLIPPED, in ascending order of output. -/
def reportAllClipped (x : Vector MixPeriod 24) (old : MixEngine) (s : State) : State :=
  forFin 24 (fun m => reportClipped m x[m] old.recs[m].clipped) s

/-- R179, R180: the lamp lines of the frame. -/
def lampFrame (s : State) : State :=
  let on := vof 48 (drivenOn s)
  s.modLamp fun l =>
    { l with
      lampOut := on
      lines := vof 48 fun w => { l.lines[w] with onSeen := l.lines[w].onSeen || on[w], tripped := false, heldOff := false } }

/-- R3, R6, R15: a port at the end of a sample period. -/
def tickPort (x : PortState) : PortState :=
  { x with idlePeriods := if x.seen then x.idlePeriods + 1 else 0, copy := none, sent := false }

/-- R28 to R31: the Switch Point Unit at the end of a sample period. -/
def tickSp (u : SwitchUnit) : SwitchUnit :=
  { u with
    sincePulse := u.sincePulse + 1, schedule := u.schedule.map (· - 1), freeRun := u.freeRun + 1,
    sinceReset := u.sinceReset + 1, pulseTaken := false, made := false }

/-- R126: a panel line at the end of a sample period. -/
def tickLine (x : PanelLine) : PanelLine := { x with timeout := if x.state = .absent then x.timeout else x.timeout + 1 }

/-- R152: the GPI sample count. -/
def tickTally (t : Tally) : Tally :=
  { t with gpiCount := (t.gpiCount + 1) % 48, gpiDue := (t.gpiCount + 1) % 48 == 0 }

/-- R173: the period count. -/
def tickLamp (l : LampDriver) : LampDriver :=
  { l with periodCount := (l.periodCount + 1) % 192, periodDue := (l.periodCount + 1) % 192 == 0, senseDue := true }

/-- R61, R109: what a period that starts now reads, before its ramp step. -/
def snapshot (s : State) : PeriodStart :=
  { routes := s.router.routes, recs := s.mix.recs, direct := s.talk.direct, confs := s.talk.confs }

/-- R115: the records after the ramp step of a period that starts now. -/
def rampedRecs (s : State) : Vector MixRec 24 :=
  vof 24 fun m => { s.mix.recs[m] with g := rampGain s.mix.recs[m] (contribSet (snapshot s) m) }

/-- The end of a sample period and the start of the next: every frame count moves on by one, the programme gains take
their step (R115, log 24), and what the next period reads is set aside. -/
def tick (s : State) : State :=
  let recs := rampedRecs s
  { s with
    mix := { s.mix with recs := recs }
    trunk := { s.trunk with east := tickPort s.trunk.east, west := tickPort s.trunk.west }
    sp := tickSp s.sp
    panel := { s.panel with lines := vmap tickLine s.panel.lines }
    tally := tickTally s.tally
    lamp := tickLamp s.lamp
    start := { snapshot s with recs := recs } }

/-- R59 to R62, R109 to R119, R179: a sample period at a member. -/
def runPeriod (tdm : Vector Sample 32) (s : State) : State :=
  let x := mixPeriods tdm s
  tick (lampFrame (reportAllClipped x s.mix { s with mix := mixAfter x s.mix, router := routerAfter tdm x s }))

/-- R2: a sample period at a repeater: TDM outputs at 0, lamp lines off, and no frame out until one arrives. -/
def repeaterPeriod (s : State) : State :=
  ((s.modRouter fun r => { r with tdmOut := vof 32 fun _ => 0 }).modLamp fun l =>
    { l with lampOut := vof 48 fun _ => false }).modTrunk fun t =>
      { t with east := { t.east with out := none }, west := { t.west with out := none } }

/-- SAMPLE_PERIOD (R109, R61, R179). -/
def execSamplePeriod (tdm : Vector Sample 32) (s : State) : Host.Outcome State Fault Refusal :=
  .next (if isMember s.trunk then runPeriod tdm s else repeaterPeriod s)

/-! ### Pin reset (R1, R25, R40, R57, R78, R102, R121, R146, R166, R187, R206) -/

/-- PIN_RESET: every block takes its pin-reset values; the commands still waiting and the model's choice counter stay. -/
def execPinReset (addr : BitVec 6) (head : Bool) (s : State) : Host.Outcome State Fault Refusal :=
  .next { State.pinReset addr head with pending := s.pending, freeCount := s.freeCount }

end Sys2Proof.Machine
end

