-- ==== Sys2Proof/Machine/Dispatch.lean ====
section
/-! DEFINITION. The dispatch: one arm for each command. -/

namespace Sys2Proof.Machine

open Sys2Proof

def exec (i : Instr) (s : State) : Host.Outcome State Fault Refusal :=
  match i with
  | .pinReset addr head => Sys2Proof.Machine.execPinReset addr head s
  | .frameArrival p f => Sys2Proof.Machine.execFrameArrival p f s
  | .missingFrame p => Sys2Proof.Machine.execMissingFrame p s
  | .outputFrameSend p => Sys2Proof.Machine.execOutputFrameSend p s
  | .samplePeriod tdm => Sys2Proof.Machine.execSamplePeriod tdm s
  | .referencePulse => Sys2Proof.Machine.execReferencePulse s
  | .referenceLost => Sys2Proof.Machine.execReferenceLost s
  | .scheduledSwitchPoint => Sys2Proof.Machine.execScheduledSwitchPoint s
  | .headFreeRun => Sys2Proof.Machine.execHeadFreeRun s
  | .epochHoldOffEnd => Sys2Proof.Machine.execEpochHoldOffEnd s
  | .localSwitchPoint => Sys2Proof.Machine.execLocalSwitchPoint s
  | .originResend idx => Sys2Proof.Machine.execOriginResend idx s
  | .leaseExpiry l node idx => Sys2Proof.Machine.execLeaseExpiry l node idx s
  | .callExpiry target caller => Sys2Proof.Machine.execCallExpiry target caller s
  | .keyWindowEnd map key => Sys2Proof.Machine.execKeyWindowEnd map key s
  | .routeCountdownEnd map key => Sys2Proof.Machine.execRouteCountdownEnd map key s
  | .loadAbandoned => Sys2Proof.Machine.execLoadAbandoned s
  | .lampPeriodStart => Sys2Proof.Machine.execLampPeriodStart s
  | .faultSense reads => Sys2Proof.Machine.execFaultSense reads s
  | .gpiSample closed => Sys2Proof.Machine.execGpiSample closed s
  | .scan line bytes => Sys2Proof.Machine.execScan line bytes s
  | .autoHoldReached map key => Sys2Proof.Machine.execAutoHoldReached map key s
  | .panelTimeout line => Sys2Proof.Machine.execPanelTimeout line s
  | .talkOn src tag m => Sys2Proof.Machine.execTalkOn src tag m s
  | .talkOff src tag m => Sys2Proof.Machine.execTalkOff src tag m s
  | .talkReply src tag m => Sys2Proof.Machine.execTalkReply src tag m s
  | .confOn src tag m => Sys2Proof.Machine.execConfOn src tag m s
  | .confOff src tag m => Sys2Proof.Machine.execConfOff src tag m s
  | .call src tag m => Sys2Proof.Machine.execCall src tag m s
  | .callCancel src tag m => Sys2Proof.Machine.execCallCancel src tag m s
  | .tallySet src tag m => Sys2Proof.Machine.execTallySet src tag m s
  | .reply src tag m => Sys2Proof.Machine.execReply src tag m s
  | .query src tag table start count => Sys2Proof.Machine.execQuery src tag table start count s
  | .routeWrite src tag index entry => Sys2Proof.Machine.execRouteWrite src tag index entry s
  | .mixWrite src tag index entry => Sys2Proof.Machine.execMixWrite src tag index entry s
  | .confWrite src tag index entry => Sys2Proof.Machine.execConfWrite src tag index entry s
  | .keymapWrite src tag index entry => Sys2Proof.Machine.execKeymapWrite src tag index entry s
  | .keyWrite src tag index entry => Sys2Proof.Machine.execKeyWrite src tag index entry s
  | .cameraWrite src tag index entry => Sys2Proof.Machine.execCameraWrite src tag index entry s
  | .tallymapWrite src tag index entry => Sys2Proof.Machine.execTallymapWrite src tag index entry s
  | .lineWrite src tag index entry => Sys2Proof.Machine.execLineWrite src tag index entry s
  | .substWrite src tag index entry => Sys2Proof.Machine.execSubstWrite src tag index entry s
  | .gpiWrite src tag index entry => Sys2Proof.Machine.execGpiWrite src tag index entry s
  | .schedWrite src tag index entry => Sys2Proof.Machine.execSchedWrite src tag index entry s
  | .controllerAddressWrite src tag value => Sys2Proof.Machine.execControllerAddressWrite src tag value s
  | .leaseWrite src tag value => Sys2Proof.Machine.execLeaseWrite src tag value s
  | .freeRunIntervalWrite src tag value => Sys2Proof.Machine.execFreeRunIntervalWrite src tag value s
  | .switchOffsetWrite src tag value => Sys2Proof.Machine.execSwitchOffsetWrite src tag value s
  | .flashCycleWrite src tag value => Sys2Proof.Machine.execFlashCycleWrite src tag value s
  | .holdThresholdWrite src tag value => Sys2Proof.Machine.execHoldThresholdWrite src tag value s
  | .loadOpen src tag table start count => Sys2Proof.Machine.execLoadOpen src tag table start count s
  | .loadData src tag seg data => Sys2Proof.Machine.execLoadData src tag seg data s
  | .take src tag m => Sys2Proof.Machine.execTake src tag m s
  | .protect src tag dest mode => Sys2Proof.Machine.execProtect src tag dest mode s
  | .release src tag dest => Sys2Proof.Machine.execRelease src tag dest s
  | .airlock src tag dest => Sys2Proof.Machine.execAirlock src tag dest s
  | .showLock src tag => Sys2Proof.Machine.execShowLock src tag s
  | .clearEventFlag src tag event => Sys2Proof.Machine.execClearEventFlag src tag event s
  | .clearPortCounters src tag => Sys2Proof.Machine.execClearPortCounters src tag s
  | .clearCellCounters src tag => Sys2Proof.Machine.execClearCellCounters src tag s
  | .clearPanelCounters src tag => Sys2Proof.Machine.execClearPanelCounters src tag s
  | .clearTallyCounters src tag => Sys2Proof.Machine.execClearTallyCounters src tag s
  | .clearCollisionFlags src tag => Sys2Proof.Machine.execClearCollisionFlags src tag s
  | .clearClippedFlags src tag => Sys2Proof.Machine.execClearClippedFlags src tag s
  | .clearLampFaults src tag => Sys2Proof.Machine.execClearLampFaults src tag s
  | .status src tag page => Sys2Proof.Machine.execStatus src tag page s
  | .identify src tag => Sys2Proof.Machine.execIdentify src tag s
  | .resetPrepare src tag => Sys2Proof.Machine.execResetPrepare src tag s
  | .resetExecute src tag => Sys2Proof.Machine.execResetExecute src tag s
  | .unknownRequest src tag kind => Sys2Proof.Machine.execUnknownRequest src tag kind s

end Sys2Proof.Machine
end

