-- ==== Sys2Proof/Safety.lean ====
section
/-! DEFINITION. What counts as a sound state of the node: the relations between the fields of State that the rules keep,
in the terms the statements use. -/

namespace Sys2Proof.Machine

open Sys2Proof

/-! ### Frames -/

/-- The parts of State that a frame speaks of. -/
inductive Block where
  | trunk | sp | cells | router | talk | mix | panel | tally | lamp | mgmt | start | choice | queue
  deriving DecidableEq, Repr

/-- A block stands in `t` as it stood in `s`. -/
def same (b : Block) (s t : State) : Prop :=
  match b with
  | .trunk => t.trunk = s.trunk
  | .sp => t.sp = s.sp
  | .cells => t.cells = s.cells
  | .router => t.router = s.router
  | .talk => t.talk = s.talk
  | .mix => t.mix = s.mix
  | .panel => t.panel = s.panel
  | .tally => t.tally = s.tally
  | .lamp => t.lamp = s.lamp
  | .mgmt => t.mgmt = s.mgmt
  | .start => t.start = s.start
  | .choice => t.freeCount = s.freeCount
  | .queue => t.pending = s.pending

/-- Nothing but the blocks named changes from `s` to `t`. -/
structure Only (bs : List Block) (s t : State) : Prop where
  /-- Every other block stands. -/
  keep : ∀ b, b ∉ bs → same b s t

/-! ### Who a command reaches -/

/-- R2, R17, R42: a cell from `src` reaches the blocks of the node: the node is a ring member, and the source is an
address 1..62 and not the node's own. -/
def Reaches (s : State) (src : Byte) : Prop :=
  isMember s.trunk = true ∧ sourceOk src = true ∧ src ≠ s.trunk.addr

/-- R191: a request of this kind and tag from `src` reaches the Management Responder and is no repeat. -/
def Fresh (s : State) (src tag kind : Byte) : Prop :=
  Reaches s src ∧ ∀ e, entryOf s.mgmt src = some e → ¬(e.kind = kind ∧ e.tag = tag)

/-- R195, R200: no show lock and no load of another requester stands against a write of table `t` by `src`. -/
def Writable (t : Table) (src : Byte) (s : State) : Prop :=
  (s.mgmt.showLock = false ∨ t = .sched) ∧ ∀ r, s.mgmt.load = .opened r → r.table = t → r.requester = src

/-- R189, R191: the state `s` after the requester's entry is written and the REPLY to a request of this kind is created,
with this code and these fields. -/
def replied (src tag kind : Byte) (code : Code) (fields : List Byte) (s : State) : State :=
  (answer src tag kind (codeByte code :: fields) s).1

/-- R48, R49: no exhaustion report is pending and buffers are free, so that a cell is created with no other effect than
its own. -/
def Roomy (s : State) : Prop := s.cells.exhausted = false ∧ 0 < s.cells.free

/-! ### Roles -/

/-- R1, R11 to R14, R24: what the roles of a Trunk Interface are: its ports, what a ring member and an active head is, the
content of each output, the directions inserted into and the current role. -/
structure RolesGiven (t : Trunk) : Prop where
  /-- East sends CW and its frames come from the West input; West sends CCW. -/
  ports : portOf t .east = t.east ∧ portOf t .west = t.west ∧ other .east = .west ∧ other .west = .east ∧
    portDir .east = .cw ∧ portDir .west = .ccw
  /-- A ring member. -/
  member : isMember t = true ↔ 1 ≤ t.addr.toNat ∧ t.addr ≠ 63
  /-- An active head. -/
  head : activeHead t = true ↔ isMember t = true ∧ t.headStrap = true ∧ t.yielded = false
  /-- The first row of R12. -/
  idle : ∀ p, (portOf t p).lock ≠ .locked → content t p = .idle
  /-- The second row. -/
  originated : ∀ p, (portOf t p).lock = .locked →
    (activeHead t = true ∧ t.mode = .closed) ∨ (portOf t (other p)).lock ≠ .locked → content t p = .originated
  /-- The third row. -/
  forwarded : ∀ p, (portOf t p).lock = .locked → ¬(activeHead t = true ∧ t.mode = .closed) →
    (portOf t (other p)).lock = .locked → content t p = .forwarded
  /-- CW is inserted into while East is non-idle. -/
  cw : inserts t .cw = true ↔ content t .east ≠ .idle
  /-- CCW is inserted into while West is non-idle, but not by the closing head whose outputs are both non-idle. -/
  ccw : inserts t .ccw = true ↔
    content t .west ≠ .idle ∧ ¬(activeHead t = true ∧ t.mode = .closed ∧ content t .east ≠ .idle)
  /-- The current role of a member. -/
  role : isMember t = true →
    (roleOf t = .member ↔ activeHead t = false ∧ ¬(t.headStrap = true ∧ t.yielded = true)) ∧
    (roleOf t = .headClosed ↔ activeHead t = true ∧ t.mode = .closed) ∧
    (roleOf t = .headOpen ↔ activeHead t = true ∧ t.mode = .opened) ∧
    (roleOf t = .headYielded ↔ t.headStrap = true ∧ t.yielded = true)

/-! ### What a frame and a call change -/

/-- R10, R11: a read frame moves neither the ring mode nor the headship: the node is no active head, or one in the mode that
the frame's head-passed mark gives, that meets no head flag of another node in it, or one of a higher node that it has
reported. -/
def HeadAtRest (f : WireFrame) (t : Trunk) : Prop :=
  activeHead t = true →
    t.mode = (if headPassed f = true then .closed else .opened) ∧
    (headFlag f = true → originator f = t.addr ∨
      (t.addr.toNat < (originator f).toNat ∧ t.conflictReported = true))

/-- R11, R12, R24, R28: frame `f` judged for a second head takes the node from `s` to `t`. From a lower address headship is
yielded, the roles are recomputed and HEAD_CONFLICT is reported; from a higher one it is kept, and HEAD_CONFLICT is reported
once. (The report comes after the roles, log 7.) -/
structure ConflictJudged (f : WireFrame) (s t : State) : Prop where
  /-- No second head: nothing happens. -/
  quiet : activeHead s.trunk = false ∨ headFlag f = false ∨ originator f = s.trunk.addr → t = s
  /-- A lower head. -/
  lower : activeHead s.trunk = true → headFlag f = true → (originator f).toNat < s.trunk.addr.toNat →
    t = report .headConflict ([originator f, 3] ++ epochBytes s.sp.epoch) (rolesChanged s.trunk
      { s with trunk := { s.trunk with yielded := true }, sp := { s.sp with ref := .notUsed, schedule := [] } }) ∧
    t.trunk.yielded = true ∧ activeHead t.trunk = false ∧ roleOf t.trunk = .headYielded ∧
    t.sp = { s.sp with ref := .notUsed, schedule := [] } ∧ t.mgmt.sticky.getLsbD 1 = true ∧
    Only [.trunk, .sp, .cells, .mgmt] s t
  /-- A higher head, already reported. -/
  told : activeHead s.trunk = true → headFlag f = true → s.trunk.addr.toNat < (originator f).toNat →
    s.trunk.conflictReported = true → t = s
  /-- A higher head. -/
  higher : activeHead s.trunk = true → headFlag f = true → s.trunk.addr.toNat < (originator f).toNat →
    s.trunk.conflictReported = false →
    t = report .headConflict ([originator f, roleCode (roleOf s.trunk)] ++ epochBytes s.sp.epoch)
      { s with trunk := { s.trunk with conflictReported := true } } ∧
    t.mgmt.sticky.getLsbD 1 = true ∧ Only [.trunk, .cells, .mgmt] s t

/-- R10, R12, R24: frame `f`, read, gives the active head its ring mode on the way from `s` to `t`: a change recomputes the
roles and is then reported as LINK_CHANGE (log 7). -/
structure ModeJudged (f : WireFrame) (s t : State) : Prop where
  /-- No active head, or its mode already. -/
  quiet : activeHead s.trunk = false ∨ s.trunk.mode = (if headPassed f = true then .closed else .opened) → t = s
  /-- A change of mode. -/
  moved : activeHead s.trunk = true → s.trunk.mode ≠ (if headPassed f = true then .closed else .opened) →
    (∀ u, u = rolesChanged s.trunk
        { s with trunk := { s.trunk with mode := if headPassed f = true then .closed else .opened } } →
      t = report .linkChange [0xFF, lockCode s.trunk.east.lock, lockCode s.trunk.west.lock,
        contentCode (content u.trunk .east), contentCode (content u.trunk .west),
        if headPassed f = true then 1 else 2] u) ∧
    t.trunk.mode = (if headPassed f = true then .closed else .opened) ∧ activeHead t.trunk = true ∧
    t.mgmt.sticky.getLsbD 0 = true ∧ Only [.trunk, .cells, .mgmt] s t

/-- R17, R19, R71, R76, R150: `o` is what a frame answers that brings this marker and hands on this cell, when it has been
read and the node stands at `s`. Where both are there either may be taken first, and the choice is counted (log 9). -/
def Acted (marker : Option Epoch) (cell : Option Cell) (s : State) (o : Host.Outcome State Fault Refusal) : Prop :=
  let u : State := { s with freeCount := s.freeCount + 1 }
  match marker, cell with
  | none, none => o = .next s
  | some e, none => o = .next (takeMarker e s)
  | none, some c => o = .next (receiveCell c s)
  | some e, some c => o = .next (receiveCell c (takeMarker e u)) ∨ o = .next (takeMarker e (receiveCell c u))

/-- R159, R172, R178: lamp `j` was handed the drive it now has, where that differs from the one it had; a PULSE_TRAIN waits
with the current epoch. -/
def Handed (j : LampId) (s t : State) : Prop :=
  let g := s.lamp.gens[j]
  let d := t.tally.drives[j]
  t.lamp.gens[j] =
    if d = s.tally.drives[j] then g
    else { g with drive := d, pulse := if d = .pulse then .waiting s.sp.epoch else g.pulse }

/-- R159: from `s` to `t` the lamps whose call point satisfies `P` were resolved against the register of `t`, and nothing
else of the Tally Resolver and the lamp lines changed but the call register. -/
structure LampsResolved (P : PointId → Prop) (s t : State) : Prop where
  /-- Only the calls and the drives change. -/
  tally : t.tally = { s.tally with calls := t.tally.calls, drives := t.tally.drives }
  /-- Only the generators change. -/
  lamp : t.lamp = { s.lamp with gens := t.lamp.gens }
  /-- No other block changes. -/
  only : Only [.tally, .lamp] s t
  /-- A lamp of such a call point has the drive that the tables give. -/
  resolved : ∀ j : LampId, ∀ p, s.tally.map[j].callPoint = some p → P p →
    t.tally.drives[j] = lampDrive t.tally s.tally.map[j]
  /-- Another lamp keeps its drive. -/
  kept : ∀ j : LampId, (∀ p, s.tally.map[j].callPoint = some p → ¬P p) → t.tally.drives[j] = s.tally.drives[j]
  /-- A changed drive is handed. -/
  handed : ∀ j : LampId, Handed j s t

/-- R124, R126, R127: line `i` is lost on the way from `s` to `t`, reported with this panel id: it goes to ABSENT; from BOUND
the talks of its map then end in ascending origin index, its keys are released in ascending order, and their states are
those of reset. -/
structure LineLost (i : LineId) (id : Byte) (s t : State) : Prop where
  /-- The line is ABSENT, and the others stand. -/
  line : t.panel.lines = s.panel.lines.set i
    { s.panel.lines[i] with state := .absent, panelId := none, scanNo := none, map := none, timeout := 0 }
  /-- The tables of the panels stand. -/
  tables : t.panel.maps = s.panel.maps ∧ t.panel.entries = s.panel.entries
  /-- PANEL_CHANGE is flagged. -/
  flagged : t.mgmt.sticky.getLsbD 8 = true
  /-- From another state than BOUND the report is all. -/
  unbound : ∀ u : State, u = { s with panel := { s.panel with lines := t.panel.lines } } → s.panel.lines[i].state ≠ .bound →
    t = report .panelChange ([b8 i.val, lineStateCode s.panel.lines[i].state, 0, id, 0xFF] ++ epochBytes s.sp.epoch) u
  /-- From BOUND the talks, the keys and the key states follow. -/
  bound : ∀ (u : State) (m : MapId), u = { s with panel := { s.panel with lines := t.panel.lines } } →
    s.panel.lines[i].state = .bound → s.panel.lines[i].map = some m →
    let told := report .panelChange ([b8 i.val, 1, 0, id, 0xFF] ++ epochBytes s.sp.epoch) u
    let ended := (List.finRange 64).foldl (fun v (o : OriginId) =>
      match v.talk.origins[o] with
      | some e => if e.map = m then endOrigin o v else v
      | none => v) told
    let released := (List.finRange 32).foldl (fun v k => setActive m k false v) ended
    t = { released with panel := { released.panel with keys := t.panel.keys } } ∧
    (∀ n, (∀ k, n ≠ keyIx m k) → t.panel.keys[n] = s.panel.keys[n]) ∧
    (∀ k : KeyId, keyState t m k =
      { cond := false, run := 0, held := false, active := false, auto := .idle, hold := 0, refusedLocal := false
        resolved := [], refusedPoints := [], toggled := none, window := none, route := .idle }) ∧
    (∀ (o : OriginId) e, t.talk.origins[o] = some e → e.map ≠ m ∧ s.talk.origins[o] = some e) ∧
    (∀ (o : OriginId) e, s.talk.origins[o] = some e → e.map ≠ m → t.talk.origins[o] = some e)
  /-- Nothing else changes. -/
  only : Only [.panel, .talk, .mix, .cells, .mgmt] s t

/-! ### What the node shows of itself -/

/-- R180, R186, R207, R212: the contents of the STATUS pages, byte by byte, and what the status record holds of the lamp
lines. (Absent fields: log 14. The packing of page 7: log 31. The fault states have no byte in a page: log 53.) -/
structure PagesShown (s : State) : Prop where
  /-- Page 0: role, epoch, reference, origin, show lock, load, sticky flags, buffers, queues, schedule. -/
  page0 : pageBytes s 0 =
    ([match roleOf s.trunk with | .member => 0 | .headClosed => 1 | .headOpen => 2 | .headYielded => 3] : List Byte) ++
    (match s.sp.epoch with | none => [0xFF, 0xFF] | some e => [0, e]) ++
    ([match s.sp.ref with | .ok => 0 | .lost => 1 | .notUsed => 2,
      match s.sp.origin with
      | .reference => 0 | .headFreeRun => 1 | .marker => 2 | .localFreeRun => 3 | .none => 4,
      if s.mgmt.showLock = true then 1 else 0] : List Byte) ++
    (match s.mgmt.load with
      | .closed _ => [0xFF, 0, 0, 0, 0, 0, 0]
      | .opened r => [tableCode r.table, r.requester] ++ b16 r.nextIndex ++ [r.nextSeg] ++ b16 r.judged) ++
    [s.mgmt.sticky.setWidth 8, (s.mgmt.sticky >>> 8).setWidth 8] ++
    [b8 s.cells.free, b8 s.cells.queues.urgent.length, b8 s.cells.queues.talk.length, b8 s.cells.queues.reply.length,
      b8 s.cells.queues.event.length, b8 s.cells.schedLen, b8 s.cells.cwIndex, b8 s.cells.ccwIndex]
  /-- Page 1: for East and West the lock, the content, the integrity and the two counters. -/
  page1 : pageBytes s 1 = [Port.east, .west].flatMap fun p =>
    let x := portOf s.trunk p
    ([match x.lock with | .noSignal => 0 | .acquiring => 1 | .locked => 2 | .lost => 3,
      match content s.trunk p with | .idle => 0 | .originated => 1 | .forwarded => 2,
      match x.integrity with | .clean => 0 | .isolated => 1 | .repeated => 2 | .persistent => 3] : List Byte) ++
    b16 x.badHeaders ++ b16 x.badCells
  /-- Page 2: the last refusal; for each line its state, panel id and map. -/
  page2 : pageBytes s 2 =
    (match s.router.lastRefusal with
      | none => [0xFF, 0, 0xFF, 0xFF]
      | some r => [b8 r.dest.val, r.requester] ++ (match r.epoch with | none => [0xFF, 0xFF] | some e => [0, e])) ++
    (List.finRange 8).flatMap fun i =>
      let x := s.panel.lines[i]
      [match x.state with | .absent => 0 | .bound => 1 | .unbound => 2 | .duplicate => 3, x.panelId.getD 0,
        match x.map with | none => 0xFF | some m => b8 m.val]
  /-- Page 3: a bit for each conditioned GPI, and one for each latch mark. -/
  page3 : (pageBytes s 3).length = 4 ∧ ∀ i : GpiId,
    (byteAt (pageBytes s 3) (i.val / 8)).getLsbD (i.val % 8) = s.tally.gpiState[i].cond ∧
    (byteAt (pageBytes s 3) (2 + i.val / 8)).getLsbD (i.val % 8) = s.tally.gpiState[i].mark
  /-- Pages 4 and 5: the drives of twenty lamps each. -/
  drives : (pageBytes s 4).length = 20 ∧ (pageBytes s 5).length = 20 ∧
    pageBytes s 4 ++ pageBytes s 5 = (List.finRange 40).map fun j =>
      match s.tally.drives[j] with
      | .off => 0 | .steady => 0x20 | .dim n => 0x40 ||| b8 (n % 16) | .flash _ _ => 0x60 | .pulse => 0x80
  /-- Page 6: the links, their number, and the number of free spares. -/
  page6 : pageBytes s 6 =
    ((List.range 8).flatMap fun k =>
      match s.lamp.links[k]? with | none => [0xFF, 0xFF] | some x => [b8 x.1.val, b8 x.2.val]) ++
    [b8 s.lamp.links.length, b8 ((List.finRange 48).filter fun w =>
      s.lamp.lines[w].role == .spare && s.lamp.links.all (fun x => x.2 != w) && s.lamp.lines[w].fault != .latched).length]
  /-- Page 7: six bits for each line, the lamp it carries or 63; four fields in three bytes, the first most significant. -/
  page7 : (pageBytes s 7).length = 36 ∧ ∀ w : WireId,
    let b := fun k => (byteAt (pageBytes s 7) (3 * (w.val / 4) + k)).toNat
    (b 0 * 65536 + b 1 * 256 + b 2) / 64 ^ (3 - w.val % 4) % 64 =
      match carried s.lamp w with | none => 63 | some j => j.val
  /-- The status record of the lamp lines: the links, and for each line the lamp it carries and its fault state. -/
  lamps : (lampStatus s.lamp).links = s.lamp.links ∧ ∀ w : WireId,
    (lampStatus s.lamp).carried[w] = carried s.lamp w ∧ (lampStatus s.lamp).faults[w] = s.lamp.lines[w].fault

/-- R207, R213: the entries of the tables as QUERY answers them, byte by byte. (Absent fields, the target of a ROUTE entry
without a pending part among them: log 14. The bytes that a
TALLYMAP term does not use: log 51. The yes-or-no fields of LINE and GPI: log 50.) -/
structure TablesShown (s : State) : Prop where
  /-- ROUTE. -/
  route : ∀ d : DestId, tableBytes s .route d.val =
    let e := s.router.routes[d]
    [match e.slot with | none => 0xFF | some t => b8 t.val, if e.collision = true then 1 else 0] ++
    sourceBytes e.active ++
    (match e.prot with | .free => [0, 0] | .protectedBy o => [1, o] | .lockedBy o => [2, o] | .airlocked => [3, 0]) ++
    (match e.pending with
      | none => [0xFF, 0xFF, 0xFF, 0xFF, 0]
      | some p => sourceBytes p.source ++ (match p.target with | .epoch x => [0, x] | .next => [1, 0]) ++ [p.requester])
  /-- MIX; subscriptions beyond the count read 0. -/
  mix : ∀ m : MixId, s.mix.recs[m].subs.length ≤ 4 → tableBytes s .mix m.val =
    let r := s.mix.recs[m]
    [if r.ifb = true then 1 else 0] ++ pointBytes r.point ++
    [match r.own with | none => 0xFF | some t => b8 t.val, b8 r.subs.length] ++
    r.subs.map (fun c => b8 c.val) ++ List.replicate (4 - r.subs.length) 0 ++ b16 r.talkGain ++ b16 r.listen ++
    (match r.prog with | none => [0xFF, 0xFF] | some x => sourceBytes x) ++ b16 r.full ++ b16 r.dim ++ b16 r.step ++
    [b8 r.threshold] ++ b16 r.g ++ [if r.clipped = true then 1 else 0]
  /-- CONF. -/
  conf : ∀ c : ConfId, tableBytes s .conf c.val = [if s.talk.confs[c].home = true then 1 else 0]
  /-- KEYMAP. -/
  keymap : ∀ m : MapId, tableBytes s .keymap m.val = keyMapBytes s.panel.maps[m] ∧
    ∀ k : KeyMap, keyMapBytes k = [k.panelId, b8 k.listen.val, b8 k.slot.val] ++ pointBytes k.point ++ [b8 k.prio.val]
  /-- KEY. -/
  key : ∀ n : Fin 256, tableBytes s .key n.val = keyEntryBytes s.panel.entries[n] ∧
    ∀ e : KeyEntry, keyEntryBytes e =
      (match e.fn with
        | .none => [0, 0, 0, 0, 0]
        | .talkPoint p => [1] ++ b16 p.val ++ [0, 0]
        | .talkConf c => [2] ++ b16 c.val ++ [0, 0]
        | .talkTally b cap => [3, b8 b.val, b8 cap, 0, 0]
        | .listenConf c => [4] ++ b16 c.val ++ [0, 0]
        | .call p d => [5] ++ b16 p.val ++ [b8 d, 0]
        | .route node d x => [6, node, b8 d.val] ++ sourceBytes x) ++
      [match e.mode with | .momentary => 0 | .latching => 1 | .auto => 2, if e.invert = true then 1 else 0, b8 e.debounce,
        match e.report with | .none => 0 | .press => 1 | .release => 2 | .both => 3,
        match e.colour with | .red => 0 | .green => 1 | .amber => 2]
  /-- CAMERA. -/
  camera : ∀ n : Fin 256, tableBytes s .camera n.val =
    match s.tally.camera[n] with | none => [0xFF, 0xFF] | some p => b16 p.val
  /-- TALLYMAP; terms beyond the count read 0. -/
  tallymap : ∀ j : LampId, tableBytes s .tallymap j.val = tallyBytes s.tally.map[j] ∧
    ∀ r : TallyRec, r.terms.length ≤ 4 → tallyBytes r =
      [b8 r.terms.length] ++ pointBytes r.callPoint ++
      (r.terms.flatMap fun x => [b8 x.bus.val, x.source] ++
        let air : Byte := if x.air = true then 0x80 else 0
        match x.drive with
        | .dim n => [air + 1, b8 n, 0]
        | .flash a b => [air + 2, b8 a, b8 b]
        | _ => [air, 0, 0]) ++ List.replicate (5 * (4 - r.terms.length)) 0
  /-- LINE. -/
  line : ∀ w : WireId, tableBytes s .line w.val =
    let x := s.lamp.lines[w]
    [match x.role with | .normal => 0 | .spare => 1, match x.mode with | .retry => 0 | .latch => 1,
      if x.autoSpare = true then 1 else 0, match x.fault with | .ok => 0 | .retrying => 1 | .latched => 2, b8 x.count]
  /-- SUBST: the line of the lamp's link, the first where there are two. -/
  subst : ∀ j : LampId,
    ((∀ y ∈ s.lamp.links, y.1 ≠ j) → tableBytes s .subst j.val = [0xFF]) ∧
    ∀ pre w post, s.lamp.links = pre ++ (j, w) :: post → (∀ y ∈ pre, y.1 ≠ j) →
      tableBytes s .subst j.val = [b8 w.val]
  /-- GPI. -/
  gpi : ∀ i : GpiId, tableBytes s .gpi i.val = gpiBytes s.tally.gpi[i] ∧
    ∀ g : GpiEntry, gpiBytes g = [if g.enable = true then 1 else 0, if g.invert = true then 1 else 0, b8 g.debounce,
      if g.latch = true then 1 else 0, g.source]
  /-- SCHED: index 0 the length, the others a class. -/
  sched : tableBytes s .sched 0 = [b8 s.cells.schedLen] ∧ ∀ i : Fin 32, tableBytes s .sched (i.val + 1) =
    [match s.cells.sched[i] with | .urgent => 0 | .talk => 1 | .reply => 2 | .event => 3]
  /-- NODE: the six parameters. -/
  node : (List.range 6).map (tableBytes s .node) =
    [s.mgmt.params.ctrl, s.mgmt.params.lease, s.mgmt.params.interval, s.mgmt.params.offset, s.mgmt.params.flash,
      s.mgmt.params.hold].map b16

/-- R101, R165, R192, R207, R213: the entries of the views, byte by byte. (Absent fields: log 14.) -/
structure ViewsShown (s : State) : Prop where
  /-- ORIGINS. -/
  origins : ∀ i : OriginId, viewBytes s .origins i.val =
    match s.talk.origins[i] with
    | none => List.replicate 14 0
    | some e =>
      [1, b8 e.map.val, b8 e.key.val, match e.sub with | none => 0xFF | some k => b8 k.val] ++
      (match e.target with | .point p => 0 :: b16 p.val | .conf c => 1 :: b16 c.val) ++ pointBytes e.point ++
      [b8 e.slot.val, b8 e.prio.val,
        match e.state with | .requested => 0 | .granted => 1 | .denied => 2 | .displaced => 3 | .noAnswer => 4,
        b8 e.countdown, b8 e.unanswered]
  /-- TALKERS: position `k` of a direct list, and of a conference's. -/
  talkers : ∀ k : Fin 8,
    let row : Byte → Option PointId → List Talker → List Byte := fun home p l =>
      match l[k.val]? with
      | none => [home] ++ pointBytes p ++ List.replicate 7 0
      | some t => [home + 1] ++ pointBytes p ++ [t.node, b8 t.origin.val] ++ pointBytes t.point ++
          [b8 t.slot.val, b8 t.prio.val, b8 t.lease]
    (∀ m : MixId, viewBytes s .talkers (m.val * 8 + k.val) = row 0 s.mix.recs[m].point s.talk.direct[m]) ∧
    (∀ c : ConfId, viewBytes s .talkers ((24 + c.val) * 8 + k.val) =
      row (if s.talk.confs[c].home = true then 2 else 0) none s.talk.confs[c].list)
  /-- BUSES: the active set of bus `b`, and its pending part. -/
  buses : ∀ b : BusId,
    let x := s.tally.buses[b]
    let shows : List Byte → Byte → Byte → SourceSet → Prop := fun l flags e set =>
      l.length = 34 ∧ byteAt l 0 = flags ∧ byteAt l 1 = e ∧
        ∀ id : Byte, (byteAt l (2 + id.toNat / 8)).getLsbD (id.toNat % 8) = set.getLsbD id.toNat
    shows (viewBytes s .buses (b.val * 2)) 0 0 x.active ∧
    match x.pending with
    | none => viewBytes s .buses (b.val * 2 + 1) = List.replicate 34 0
    | some (set, .epoch e) => shows (viewBytes s .buses (b.val * 2 + 1)) 1 e set
    | some (set, .next) => shows (viewBytes s .buses (b.val * 2 + 1)) 3 0 set
  /-- CALLS. -/
  calls : ∀ k : Fin 16, viewBytes s .calls k.val =
    match s.tally.calls[k.val]? with
    | none => List.replicate 5 0
    | some c => b16 c.target.val ++ b16 c.caller.val ++ [b8 c.remaining]
  /-- COUNTERS. -/
  counters : (List.range 24).map (viewBytes s .counters) =
    ([s.trunk.east.badHeaders, s.trunk.east.badCells, s.trunk.west.badHeaders, s.trunk.west.badCells,
      s.cells.loss.urgent, s.cells.loss.talk, s.cells.loss.reply, s.cells.loss.event,
      s.cells.undeliverable.urgent, s.cells.undeliverable.talk, s.cells.undeliverable.reply, s.cells.undeliverable.event,
      s.cells.unknownKind, s.cells.malformed, s.cells.misaddressed] ++
      ((List.finRange 8).map fun i => s.panel.lines[i].badScans) ++ [s.tally.rejects]).map b16

/-! ### Sound states -/

/-- R50: no queued cell has an empty outstanding set. -/
def QueuesLive (c : CellEngine) : Prop :=
  ∀ k : CellClass, ∀ q ∈ c.queues.get k, q.cw = true ∨ q.ccw = true

/-- R47, R52: the outstanding sets lie within the insertion directions of the node. -/
def DirsWithin (s : State) : Prop :=
  ∀ k : CellClass, ∀ q ∈ s.cells.queues.get k,
    (q.cw = true → inserts s.trunk .cw = true) ∧ (q.ccw = true → inserts s.trunk .ccw = true)

/-- R46: queued cells plus free buffers number 128. -/
def PoolWhole (c : CellEngine) : Prop := queuedCells c + c.free = 128

/-- R53, R54: the schedule length is 1..32 and each index lies below it. -/
def SchedSound (c : CellEngine) : Prop :=
  1 ≤ c.schedLen ∧ c.schedLen ≤ 32 ∧ c.cwIndex < c.schedLen ∧ c.ccwIndex < c.schedLen

/-- R104, R106: the gains of a mix record are in order, and a LISTENER's g is full. -/
def GainSound (r : MixRec) : Prop :=
  r.dim ≤ r.g ∧ r.g ≤ r.full ∧ r.full ≤ 4096 ∧ (r.ifb = false → r.g = r.full)

/-- R105: a mix record subscribes to at most four conferences, none twice. -/
def SubsSound (r : MixRec) : Prop := r.subs.length ≤ 4 ∧ r.subs.Nodup

/-- R193: the NODE parameters are within their values. -/
def ParamsSound (p : Params) : Prop :=
  p.ctrl ≤ 63 ∧ (8 ≤ p.lease ∧ p.lease ≤ 255) ∧ (400 ≤ p.interval ∧ p.interval ≤ 4800) ∧ p.offset ≤ 4799 ∧
    (p.flash = 2 ∨ p.flash = 4 ∨ p.flash = 8 ∨ p.flash = 16 ∨ p.flash = 32) ∧ (1 ≤ p.hold ∧ p.hold ≤ 255)

/-- R62, R65: no two insert entries name one slot. -/
def SlotsUnique (r : Router) : Prop :=
  ∀ i j : DestId, 32 ≤ i.val → 32 ≤ j.val → i ≠ j → ∀ t, r.routes[i].slot = some t → r.routes[j].slot ≠ some t

/-- R72: a PROTECTED destination holds no pending part of another requester, a LOCKED or AIRLOCKED one holds none. -/
def PendingsLawful (r : Router) : Prop :=
  ∀ d : DestId, match r.routes[d].prot with
    | .free => True
    | .protectedBy o => ∀ p, r.routes[d].pending = some p → p.requester = o
    | .lockedBy _ => r.routes[d].pending = none
    | .airlocked => r.routes[d].pending = none

/-- R90: a talker list holds at most 8 entries, no node and origin index twice. -/
def ListSound (l : List Talker) : Prop :=
  l.length ≤ 8 ∧ l.Pairwise fun a b => ¬(a.node = b.node ∧ a.origin = b.origin)

/-- R90: every talker list of the node is sound. -/
def ListsSound (t : TalkAuthority) : Prop := ∀ l : ListId, ListSound (listOf t l)

/-- R161: the call register holds at most 16 calls, no pair of points twice. -/
def CallsSound (t : Tally) : Prop :=
  t.calls.length ≤ 16 ∧ t.calls.Pairwise fun a b => ¬(a.target = b.target ∧ a.caller = b.caller)

/-- R169, R171: at most eight substitution links; no lamp and no line has two; every target is a SPARE line. -/
def LinksSound (l : LampDriver) : Prop :=
  l.links.length ≤ 8 ∧ (l.links.map (·.1)).Nodup ∧ (l.links.map (·.2)).Nodup ∧
    ∀ x ∈ l.links, l.lines[x.2].role = .spare

end Sys2Proof.Machine
end

