-- ==== Sys2Proof/Certificates/Slice0/Obligations.lean ====
section
/-! DEFINITION. The statements for the provers, from the numbered rules of spec/. -/

open Sys2Proof Sys2Proof.Machine

/-! ### The queue, the two resets of nothing, and the repeater -/

/-- One step of a waiting command is that command run on the node with the rest of the queue; on an empty queue the node
idles. The queue and the idling are the model's choice (log 2). -/
def Obligations.StepRunsFront : Prop :=
  ∀ (c : Instr) (rest : List Instr) (s : State),
    step { s with pending := c :: rest } = exec c { s with pending := rest } ∧
    step { s with pending := [] } = .next { s with pending := [] }

/-- Every command of the table has an effect in every state, and none of them touches the commands still waiting. The
queue is the model's (log 2); "each whole and indivisible" is the table's. -/
def Obligations.EveryCommandCompletes : Prop :=
  ∀ (c : Instr) (s : State), ∃ t, exec c s = .next t ∧ t.pending = s.pending

/-- PIN_RESET (R1, R25, R40, R57, R78, R102, R121, R146, R166, R187, R193, R206): the straps are sampled, and every
register, table, list and counter of every block holds its pin-reset value, whatever stood before; no output is non-idle
and no direction is inserted into. The model's own marks take the values of log 8, the sets held for the DIM lamps
that of log 58, hold counts and recorded toggles those of log 59; the commands still waiting and the choice counter stand. -/
def Obligations.PinReset : Prop :=
  ∀ (a : BitVec 6) (h : Bool) (s : State), ∃ t, exec (.pinReset a h) s = .next t ∧
    -- Trunk Interface and Switch Point Unit
    t.trunk.addr.toNat = a.toNat ∧ t.trunk.headStrap = h ∧ t.trunk.yielded = false ∧
    t.trunk.conflictReported = false ∧ t.trunk.mode = .closed ∧
    (∀ p, portOf t.trunk p =
      { lock := .noSignal, goodRun := 0, badRun := 0, seen := false, idlePeriods := 0, missed := 0, badHeaders := 0
        badCells := 0, integrity := .clean, curBad := 0, prevBad := false, copy := none, buffer := none, mark := none
        sent := false, out := none } ∧ content t.trunk p = .idle) ∧
    (∀ d, inserts t.trunk d = false) ∧
    t.sp = { epoch := none, ref := if 1 ≤ a.toNat ∧ a.toNat ≤ 62 ∧ h = true then .lost else .notUsed, sincePulse := 0
             schedule := [], freeRun := 0, origin := .none, sinceReset := 0, holdEnded := false, pulseTaken := false
             made := false } ∧
    -- Cell Engine and Feed Router
    t.cells = { queues := { urgent := [], talk := [], reply := [], event := [] }, free := 128, tag := 0
                exhausted := false, schedLen := 8, sched := t.cells.sched, cwIndex := 0, ccwIndex := 0
                loss := { urgent := 0, talk := 0, reply := 0, event := 0 }
                undeliverable := { urgent := 0, talk := 0, reply := 0, event := 0 }
                unknownKind := 0, malformed := 0, misaddressed := 0 } ∧
    (List.range 9).map (schedAt t.cells) =
      [.urgent, .talk, .urgent, .reply, .urgent, .talk, .urgent, .event, .urgent] ∧
    (∀ n : Fin 32, 8 ≤ n.val → t.cells.sched[n] = .urgent) ∧
    (∀ d : DestId, t.router.routes[d] =
      { active := .silence, prot := .free, pending := none, slot := none, collision := false }) ∧
    t.router.lastRefusal = none ∧ (∀ n : Fin 32, t.router.tdmOut[n] = 0 ∧ t.router.insertions[n] = none) ∧
    -- Talk Authority and Mix Engine
    (∀ i : OriginId, t.talk.origins[i] = none) ∧ t.talk.pointer = 0 ∧ (∀ l, listOf t.talk l = []) ∧
    (∀ c : ConfId, t.talk.confs[c].home = false) ∧
    (∀ m : MixId, t.mix.recs[m] =
      { ifb := false, point := none, own := none, subs := [], talkGain := 4096, listen := 4096, prog := none
        full := 4096, dim := 1024, step := 64, threshold := 4, g := 4096, clipped := false, prev := 0 } ∧
      t.mix.contrib[m] = []) ∧
    t.start = { routes := t.router.routes, recs := t.mix.recs, direct := t.talk.direct, confs := t.talk.confs } ∧
    -- Panel Line Controller and Key Processor
    (∀ i : LineId, t.panel.lines[i] =
      { state := .absent, panelId := none, scanNo := none, map := none, timeout := 0, badScans := 0, lamps := none }) ∧
    (∀ m : MapId, t.panel.maps[m].panelId = 0 ∧ t.panel.maps[m].listen.val = m.val ∧
      t.panel.maps[m].slot.val = m.val ∧ t.panel.maps[m].point = none ∧ t.panel.maps[m].prio.val = 1) ∧
    (∀ k : Fin 256, t.panel.entries[k] =
        { fn := .none, mode := .momentary, invert := false, debounce := 2, report := .none, colour := .red } ∧
      t.panel.keys[k] =
        { cond := false, run := 0, held := false, active := false, auto := .idle, hold := 0, refusedLocal := false
          resolved := [], refusedPoints := [], toggled := none, window := none, route := .idle }) ∧
    -- Tally Resolver
    (∀ b : BusId, t.tally.buses[b] = { active := 0, pending := none }) ∧
    (∀ g : GpiId, t.tally.gpi[g] =
        { enable := false, invert := false, debounce := 1, latch := false, source := t.tally.gpi[g].source } ∧
      t.tally.gpi[g].source.toNat = 240 + g.val ∧ t.tally.gpiState[g] = { cond := false, run := 0, mark := false }) ∧
    t.tally.gpiCount = 0 ∧ t.tally.gpiDue = true ∧ (∀ n : Fin 256, t.tally.camera[n] = none) ∧
    t.tally.calls = [] ∧ t.tally.rejects = 0 ∧
    (∀ j : LampId, t.tally.map[j] = { terms := [], callPoint := none } ∧ t.tally.drives[j] = .off ∧
      t.lamp.gens[j] = { drive := .off, level := 0, pulse := .waiting none }) ∧
    -- Lamp Line Driver
    (∀ w : WireId, t.lamp.lines[w] =
        { role := if w.val < 40 then .normal else .spare, mode := .retry, autoSpare := false, fault := .ok, count := 0
          retryOff := false, tripped := false, heldOff := false, onSeen := false, faultSeen := false } ∧
      t.lamp.lampOut[w] = false) ∧
    t.lamp.links = [] ∧ t.lamp.periodCount = 0 ∧ t.lamp.periodDue = true ∧ t.lamp.senseDue = true ∧
    -- Management Responder
    t.mgmt.params = { ctrl := 0, lease := 40, interval := 1920, offset := 0, flash := 16, hold := 60 } ∧
    t.mgmt.showLock = false ∧ t.mgmt.load = .closed none ∧ t.mgmt.sticky = 0 ∧
    (∀ n : Fin 64, t.mgmt.requesters[n] = none) ∧
    t.pending = s.pending ∧ t.freeCount = s.freeCount

/-- R2: a pass-through repeater sends an arriving frame unaltered on the opposite output and changes nothing else; a
sample period leaves its TDM outputs at 0, its lamp lines off and its outputs silent and changes nothing else; no other command but PIN_RESET
changes it. (That an output shows a frame until SAMPLE_PERIOD clears it, and that no other command acts: log 36.) -/
def Obligations.RepeaterPasses : Prop :=
  ∀ s : State, isMember s.trunk = false →
    (∀ (p : Port) (f : WireFrame), ∃ t, exec (.frameArrival p f) s = .next t ∧ Only [.trunk] s t ∧
      t.trunk = modPort (other p) (fun x => { x with out := some f }) s.trunk) ∧
    (∀ tdm, ∃ t, exec (.samplePeriod tdm) s = .next t ∧ Only [.trunk, .router, .lamp] s t ∧
      t.router = { s.router with tdmOut := t.router.tdmOut } ∧ t.lamp = { s.lamp with lampOut := t.lamp.lampOut } ∧
      (∀ n : Fin 32, t.router.tdmOut[n] = 0) ∧ (∀ w : WireId, t.lamp.lampOut[w] = false) ∧
      t.trunk = { s.trunk with
        east := { s.trunk.east with out := none }, west := { s.trunk.west with out := none } }) ∧
    (∀ c : Instr, (∀ a h, c ≠ .pinReset a h) → (∀ p f, c ≠ .frameArrival p f) → (∀ tdm, c ≠ .samplePeriod tdm) →
      exec c s = .next s)

/-! ### What every step keeps -/

/-- The state after reset meets every invariant below (the strap values are the model's choice, log 1). -/
def Obligations.ResetIsSound : Prop :=
  PoolWhole State.reset.cells ∧ SchedSound State.reset.cells ∧ QueuesLive State.reset.cells ∧ DirsWithin State.reset ∧
    (∀ m : MixId, GainSound State.reset.mix.recs[m] ∧ SubsSound State.reset.mix.recs[m]) ∧
    ParamsSound State.reset.mgmt.params ∧ SlotsUnique State.reset.router ∧ PendingsLawful State.reset.router ∧ ListsSound State.reset.talk ∧
    CallsSound State.reset.tally ∧ LinksSound State.reset.lamp ∧ State.reset.pending = []

/-- R46, R53, R54: every step keeps the pool whole (queued cells plus free buffers number 128) and the slot schedule in
range. -/
def Obligations.PoolKept : Prop :=
  ∀ s t : State, PoolWhole s.cells → SchedSound s.cells → step s = .next t →
    PoolWhole t.cells ∧ SchedSound t.cells

/-- R47, R50, R52: after every step each queued cell has a direction outstanding, and only directions that the node
inserts into. -/
def Obligations.DirectionsKept : Prop :=
  ∀ s t : State, QueuesLive s.cells → DirsWithin s → step s = .next t → QueuesLive t.cells ∧ DirsWithin t

/-- R104 to R107, R193: every step keeps the gains of every mix output in order, its subscriptions at most four and
distinct, and the NODE parameters within their values. -/
def Obligations.GainsKept : Prop :=
  ∀ s t : State, (∀ m : MixId, GainSound s.mix.recs[m] ∧ SubsSound s.mix.recs[m]) → ParamsSound s.mgmt.params →
    step s = .next t →
    (∀ m : MixId, GainSound t.mix.recs[m] ∧ SubsSound t.mix.recs[m]) ∧ ParamsSound t.mgmt.params

/-- R62, R65, R72: every step keeps the insert slots distinct, and the pending parts as the protections allow them. -/
def Obligations.RoutesKept : Prop :=
  ∀ s t : State, SlotsUnique s.router → PendingsLawful s.router → step s = .next t →
    SlotsUnique t.router ∧ PendingsLawful t.router

/-- R90, R92, R97, R161, R169, R171, R182: every step keeps each talker list at eight entries at most, no talker twice;
the call register at sixteen at most, no pair twice; and the substitution links at eight at most, one to a lamp and one to
a line, each to a SPARE line. -/
def Obligations.RegistersKept : Prop :=
  (∀ s t : State, ListsSound s.talk → step s = .next t → ListsSound t.talk) ∧
  (∀ s t : State, CallsSound s.tally → step s = .next t → CallsSound t.tally) ∧
  (∀ s t : State, LinksSound s.lamp → step s = .next t → LinksSound t.lamp)

/-- R1, R11, R27: no command but PIN_RESET moves the straps as sampled, gives a yielded headship back, or makes a known
epoch UNKNOWN. -/
def Obligations.StrapsHeld : Prop :=
  ∀ (c : Instr) (s t : State), (∀ a h, c ≠ .pinReset a h) → exec c s = .next t →
    t.trunk.addr = s.trunk.addr ∧ t.trunk.headStrap = s.trunk.headStrap ∧
      (s.trunk.yielded = true → t.trunk.yielded = true) ∧ (s.sp.epoch.isSome = true → t.sp.epoch.isSome = true)

/-! ### The Cell Engine -/

/-- R41, R42, R47, R48, R49: what the creation of a cell does: a destination of 0 or the node's own address; an empty free list;
a cell queued behind its class with the insertion directions of the moment; a cell that no direction takes, whose buffer
returns at once. R203, R209, R210: what a report does: it sets the sticky flag of its event code, and creates one EVENT cell of
that code and its fields for the controller where the controller address is 1..62. -/
def Obligations.CellCreated : Prop :=
  (∀ k : CellKind, kindClass k =
    match k with
    | .tallySet => none
    | .talkOff | .confOn | .confOff | .call | .callCancel => some .urgent
    | .talkOn | .talkReply => some .talk
    | .request | .reply => some .reply
    | .event => some .event) ∧
  (∀ (k : EventKind) (fields : List Byte) (s : State),
    let code : Nat :=
      match k with
      | .linkChange => 0 | .headConflict => 1 | .referenceLost => 2 | .referenceOk => 3 | .slotCollision => 4
      | .takeLate => 5 | .talkExpired => 6 | .clipped => 7 | .panelChange => 8 | .keyEvent => 9 | .tallyLate => 10
      | .lampFault => 11 | .spareInstalled => 12 | .spareExhausted => 13 | .loadAbandoned => 14 | .poolExhausted => 15
    let n := s.mgmt.params.ctrl
    ∃ flags : BitVec 16, (∀ i < 16, flags.getLsbD i = (s.mgmt.sticky.getLsbD i || decide (i = code))) ∧
      let u : State := { s with mgmt := { s.mgmt with sticky := flags } }
      (n = 0 ∨ 62 < n → report k fields s = u) ∧
      (1 ≤ n → n ≤ 62 →
        report k fields s = (createCell .event (BitVec.ofNat 8 n) none (BitVec.ofNat 8 code :: fields) u).1)) ∧
  ∀ (k : CellKind) (cl : CellClass) (dest : Byte) (tag : Option Byte) (payload : List Byte) (s : State),
    kindClass k = some cl →
    let moved := if tag = none then s.cells.tag + 1 else s.cells.tag
    (dest = 0 ∨ dest = s.trunk.addr →
      createCell k dest tag payload s =
        ({ s with cells := { s.cells with undeliverable := s.cells.undeliverable.mod cl fun n => satAdd n 1 } }, none)) ∧
    (dest ≠ 0 → dest ≠ s.trunk.addr → s.cells.free = 0 →
      createCell k dest tag payload s =
        ({ s with
            cells := { s.cells with loss := s.cells.loss.mod cl fun n => satAdd n 1, exhausted := true }
            mgmt := { s.mgmt with sticky := s.mgmt.sticky ||| 0x8000 } }, none)) ∧
    (dest ≠ 0 → dest ≠ s.trunk.addr → 0 < s.cells.free →
      (inserts s.trunk .cw = true ∨ inserts s.trunk .ccw = true) →
      createCell k dest tag payload s =
        ({ s with
            cells := { s.cells with
              tag := moved, free := s.cells.free - 1
              queues := s.cells.queues.mod cl fun q => q ++
                [{ cell := { kind := kindCode k, dest := dest, src := s.trunk.addr, tag := tag.getD s.cells.tag,
                             len := b8 payload.length, payload := payload }
                   cw := inserts s.trunk .cw, ccw := inserts s.trunk .ccw, sent := false }] } },
          some (tag.getD s.cells.tag))) ∧
    (dest ≠ 0 → dest ≠ s.trunk.addr → 0 < s.cells.free →
      inserts s.trunk .cw = false → inserts s.trunk .ccw = false →
      createCell k dest tag payload s =
        (bufferReturned { s with
            cells := { s.cells with
              tag := moved, undeliverable := s.cells.undeliverable.mod cl fun n => satAdd n 1 } },
          some (tag.getD s.cells.tag)))

/-- R49, R51, R54: a free slot offered in direction `d` goes to the first entry of the schedule, from the direction's index
on and round the entries in use, whose class holds a cell with `d` outstanding; the oldest such cell is sent, loses `d`,
leaves its queue when nothing is left of its set, whose buffer returns, and the index moves behind the winner. Without a
winner nothing changes. -/
def Obligations.SlotGranted : Prop :=
  ∀ (s : State) (d : Dir), SchedSound s.cells →
    let entry := fun n => (schedIndex s.cells d + n) % s.cells.schedLen
    let empty := fun n => ∀ x ∈ s.cells.queues.get (schedAt s.cells (entry n)), x.has d = false
    ((∀ n < s.cells.schedLen, empty n) → grant d s = (s, none)) ∧
    (∀ (n : Nat) (pre post : List QCell) (q : QCell), n < s.cells.schedLen → (∀ m < n, empty m) →
      s.cells.queues.get (schedAt s.cells (entry n)) = pre ++ q :: post → (∀ x ∈ pre, x.has d = false) →
      q.has d = true →
      let left : QCell :=
        { q with cw := q.cw && d != .cw, ccw := q.ccw && d != .ccw, sent := true }
      let gone := left.cw = false ∧ left.ccw = false
      let sent : State := s.modCells fun c =>
        setSchedIndex d ((entry n + 1) % c.schedLen)
          { c with
            free := if gone then c.free + 1 else c.free
            queues := c.queues.mod (schedAt c (entry n)) fun _ => if gone then pre ++ post else pre ++ left :: post }
      grant d s = (if gone then bufferReturned sent else sent, some q.cell))

/-- R1, R11 to R14, R24: the roles of a Trunk Interface: content of the outputs, insertion directions, current role. R49, R52,
R203: a buffer that returns to the free list is used first for a pending exhaustion report: cleared and
flagged (the flag of R48 is set again with the event, log 25), the event cell goes into that buffer, or none is made for the
controller address, or it is undeliverable.
Directions taken from the outstanding sets: every cell left with none leaves its queue and frees its buffer, and counts as
undeliverable unless it was sent. A change of roles discards the buffers of outputs that stop being FORWARDED and takes
the directions that are no longer inserted into. -/
def Obligations.PoolReturns : Prop :=
  ∀ s : State, RolesGiven s.trunk ∧
    (s.cells.exhausted = false → bufferReturned s = s) ∧
    (s.cells.exhausted = true → 0 < s.cells.free →
      let c := s.cells
      let n := s.mgmt.params.ctrl
      let dest : Byte := BitVec.ofNat 8 n
      let told : CellEngine → State := fun x =>
        { s with cells := { x with exhausted := false }, mgmt := { s.mgmt with sticky := s.mgmt.sticky ||| 0x8000 } }
      let uncounted := { c.undeliverable with event := min (c.undeliverable.event + 1) 65535 }
      let cell : Cell :=
        { kind := 10, dest := dest, src := s.trunk.addr, tag := c.tag, len := 9
          payload := 15 :: (b16 c.loss.urgent ++ b16 c.loss.talk ++ b16 c.loss.reply ++ b16 c.loss.event) }
      (n = 0 ∨ 62 < n → bufferReturned s = told c) ∧
      (1 ≤ n → n ≤ 62 → dest = s.trunk.addr → bufferReturned s = told { c with undeliverable := uncounted }) ∧
      (1 ≤ n → n ≤ 62 → dest ≠ s.trunk.addr →
        (inserts s.trunk .cw = true ∨ inserts s.trunk .ccw = true → bufferReturned s = told { c with
          tag := c.tag + 1, free := c.free - 1
          queues := { c.queues with event := c.queues.event ++
            [{ cell := cell, cw := inserts s.trunk .cw, ccw := inserts s.trunk .ccw, sent := false }] } }) ∧
        (inserts s.trunk .cw = false → inserts s.trunk .ccw = false →
          bufferReturned s = told { c with tag := c.tag + 1, undeliverable := uncounted }))) ∧
    (∀ cw ccw : Bool,
      let left : QCell → QCell := fun q => { q with cw := q.cw && !cw, ccw := q.ccw && !ccw }
      let live : QCell → Bool := fun q => (left q).cw || (left q).ccw
      let gone : CellClass → Nat := fun k => ((s.cells.queues.get k).filter fun q => !live q).length
      let all := gone .urgent + gone .talk + gone .reply + gone .event
      ∃ u, Only [.cells] s u ∧
        u.cells = { s.cells with
          free := s.cells.free + all, queues := u.cells.queues, undeliverable := u.cells.undeliverable } ∧
        (∀ k, u.cells.queues.get k = ((s.cells.queues.get k).filter live).map left ∧
          u.cells.undeliverable.get k = min (s.cells.undeliverable.get k +
            ((s.cells.queues.get k).filter fun q => !live q && !q.sent).length) 65535) ∧
        prune cw ccw s = if all = 0 then u else bufferReturned u) ∧
    (∀ old : Trunk,
      let drop : Port → PortState := fun p =>
        if content old p == .forwarded && content s.trunk p != .forwarded then { portOf s.trunk p with buffer := none }
        else portOf s.trunk p
      let off : Dir → Bool := fun d => inserts old d && !inserts s.trunk d
      let u : State := { s with trunk := { s.trunk with east := drop .east, west := drop .west } }
      rolesChanged old s = if off .cw = false ∧ off .ccw = false then u else prune (off .cw) (off .ccw) u)

/-- R44, R56, R209: the tests on a cell handed to the Cell Engine, in their order: an unknown kind; a source outside 1..62 or a
length its kind does not allow; a destination its kind does not allow; and the hand-over of a cell that passes. The codes of the
kinds and the lengths that they allow. -/
def Obligations.CellsTested : Prop :=
  (∀ k : CellKind, (kindCode k).toNat =
    match k with
    | .talkOn => 0 | .talkOff => 1 | .talkReply => 2 | .confOn => 3 | .confOff => 4 | .call => 5 | .callCancel => 6
    | .tallySet => 7 | .request => 8 | .reply => 9 | .event => 10) ∧
  (∀ (k : CellKind) (n : Nat), lengthOk k n = true ↔
    match k with
    | .talkOn => n = 8 | .talkOff => n = 4 | .talkReply => n = 5 | .confOn => n = 8 | .confOff => n = 3
    | .call => n = 5 | .callCancel => n = 4 | .tallySet => n = 35
    | .request => 1 ≤ n ∧ n ≤ 40 | .reply => 2 ≤ n ∧ n ≤ 40 | .event => 1 ≤ n ∧ n ≤ 40) ∧
  ∀ (c : Cell) (s : State),
    (11 ≤ c.kind.toNat → receiveCell c s =
      { s with cells := { s.cells with unknownKind := satAdd s.cells.unknownKind 1 } }) ∧
    (∀ k, c.kind = kindCode k →
      (¬(1 ≤ c.src.toNat ∧ c.src.toNat ≤ 62) ∨ lengthOk k c.len.toNat = false → receiveCell c s =
        { s with cells := { s.cells with malformed := satAdd s.cells.malformed 1 } }) ∧
      (1 ≤ c.src.toNat → c.src.toNat ≤ 62 → lengthOk k c.len.toNat = true →
        let toNode := c.dest = s.trunk.addr
        let accepted := match k with
          | .event => False
          | .request | .reply | .talkReply => toNode
          | _ => c.dest = 63 ∨ toNode
        (¬accepted → receiveCell c s =
          { s with cells := { s.cells with misaddressed := satAdd s.cells.misaddressed 1 } }) ∧
        (accepted → receiveCell c s = handCell k c s)))

/-- R42, R43, R59, R128, R129, R151, R157, R207, R208, R209, R213, R214: what the node reads of a frame header, a slot mark and a
cell slot, and the check; and what it writes is read back as it was: a
cell in a cell slot of 47 bytes with its check; a source; the KEYMAP, GPI, KEY and TALLYMAP entries that QUERY answers, as
SET takes them; a SCAN as a panel sends it. -/
def Obligations.EncodingsRoundTrip : Prop :=
  (crc [] = 0xFFFF ∧ ∀ (l : List Byte) (b : Byte), crc (l ++ [b]) =
    (List.range 8).foldl (fun (c : Half) _ => if c.msb = true then (c <<< 1) ^^^ 0x1021 else c <<< 1)
      (crc l ^^^ (b.setWidth 16 <<< 8))) ∧
  (∀ f : WireFrame,
    (headerGood f = true ↔ f.check = crc [f.kind, f.orig, f.marker, f.epoch] ∧ (f.kind = 0x5A ∨ f.kind = 0xA5)) ∧
    (isIdle f = true ↔ f.kind = 0x5A) ∧ (originator f).toNat = f.orig.toNat % 64 ∧
    (headPassed f = true ↔ 64 ≤ f.orig.toNat % 128) ∧ (headFlag f = true ↔ 128 ≤ f.orig.toNat) ∧
    (128 ≤ f.marker.toNat → frameMarker f = some f.epoch) ∧ (f.marker.toNat < 128 → frameMarker f = none)) ∧
  (∀ x : Sample, slotValid { mark := 1, sample := x } = true ∧ slotValid { mark := 0, sample := x } = false) ∧
  (∀ (c : Cell) (check : Half) (rest : List Byte), c.payload.length ≤ 40 → c.len.toNat = c.payload.length →
    let body := [c.kind, c.dest, c.src, c.tag, c.len] ++ c.payload
    readCell (body ++ halfBytes check ++ rest) = (c, decide (check = crc body))) ∧
  (∀ c : Cell, c.payload.length ≤ 40 → c.len.toNat = c.payload.length →
    readCell (cellWire c) = (c, true) ∧ (cellWire c).length = 47) ∧
  (∀ x : Source, readSource (halfAt (sourceBytes x) 0) = some x ∧ (sourceBytes x).length = 2) ∧
  (∀ k : KeyMap, readKeyMap (keyMapBytes k) = some k ∧ (keyMapBytes k).length = entrySize .keymap) ∧
  (∀ g : GpiEntry, g.debounce ≤ 15 → readGpi (gpiBytes g) = some g ∧ (gpiBytes g).length = entrySize .gpi) ∧
  (∀ e : KeyEntry, e.debounce ≤ 15 →
    (match e.fn with
      | .talkTally _ cap => 1 ≤ cap ∧ cap ≤ 4
      | .call _ d => 1 ≤ d ∧ d ≤ 255
      | .route node _ _ => 1 ≤ node.toNat ∧ node.toNat ≤ 62
      | _ => True) →
    readKeyEntry (keyEntryBytes e) = some e ∧ (keyEntryBytes e).length = entrySize .key) ∧
  (∀ r : TallyRec, r.terms.length ≤ 4 →
    (∀ x ∈ r.terms, match x.drive with
      | .steady => True
      | .dim n => 1 ≤ n ∧ n ≤ 15
      | .flash a b => a ≤ 32 ∧ b ≤ 32
      | _ => False) →
    readTallyRec (tallyBytes r) = some r ∧ (tallyBytes r).length = entrySize .tallymap) ∧
  (∀ (id no knob : Byte) (pressed : BitVec 32), id ≠ 0 →
    let body := [0x3C, id, no] ++ bitmap 4 pressed.toNat ++ [knob]
    readScan (body ++ halfBytes (crc body)) = some { panelId := id, scanNo := no, pressed := pressed.toNat, knob := knob })

/-- R41, R44, R189, R209, R211: the commands of received cells and of requests are those cells: the layout of each kind,
handed to the Cell Engine, does what the command does. (That the commands stand for these cells is read from the rules,
log 40.) -/
def Obligations.CellCommandsAreCells : Prop :=
  ∀ (s : State) (src tag : Byte), Reaches s src →
    let at63 : Byte → List Byte → Cell := fun k p =>
      { kind := k, dest := 63, src := src, tag := tag, len := b8 p.length, payload := p }
    let atNode : Byte → List Byte → Cell := fun k p =>
      { kind := k, dest := s.trunk.addr, src := src, tag := tag, len := b8 p.length, payload := p }
    let asks : Instr → List Byte → Prop := fun c p => exec c s = .next (receiveCell (atNode 8 p) s)
    (∀ m : TalkOnMsg, exec (.talkOn src tag m) s = .next (receiveCell (at63 0
      ([m.kind] ++ halfBytes m.id ++ [m.origin] ++ halfBytes m.point ++ [m.slot, m.prio])) s)) ∧
    (∀ m : TalkOffMsg, exec (.talkOff src tag m) s = .next (receiveCell (at63 1
      ([m.kind] ++ halfBytes m.id ++ [m.origin])) s)) ∧
    (∀ m : TalkReplyMsg, exec (.talkReply src tag m) s = .next (receiveCell (atNode 2
      ([m.kind] ++ halfBytes m.id ++ [m.origin, m.outcome])) s)) ∧
    (∀ m : ConfOnMsg, exec (.confOn src tag m) s = .next (receiveCell (at63 3
      ([m.conf, m.node, m.origin] ++ halfBytes m.point ++ [m.slot, m.prio, m.lease])) s)) ∧
    (∀ m : ConfOffMsg, exec (.confOff src tag m) s = .next (receiveCell (at63 4 [m.conf, m.node, m.origin]) s)) ∧
    (∀ m : CallMsg, exec (.call src tag m) s = .next (receiveCell (at63 5
      (halfBytes m.target ++ halfBytes m.caller ++ [m.duration])) s)) ∧
    (∀ m : CancelMsg, exec (.callCancel src tag m) s = .next (receiveCell (at63 6
      (halfBytes m.target ++ halfBytes m.caller)) s)) ∧
    (∀ m : TallySetMsg, exec (.tallySet src tag m) s = .next (receiveCell (at63 7
      ([m.bus, m.mode, m.epoch] ++ bitmap 32 m.set.toNat)) s)) ∧
    (∀ m : ReplyMsg, m.fields.length ≤ 38 → exec (.reply src tag m) s = .next (receiveCell (atNode 9
      ([m.kind, m.code] ++ m.fields)) s)) ∧
    -- requests
    (∀ (t : Table) (i : Half) (e : List Byte), e.length ≤ 36 → setEntry t src tag i e s = .next (receiveCell (atNode 8
      ([1, tableCode t] ++ halfBytes i ++ e)) s)) ∧
    (∀ w ∈ ([(.route, .routeWrite), (.mix, .mixWrite), (.conf, .confWrite), (.keymap, .keymapWrite), (.key, .keyWrite),
        (.camera, .cameraWrite), (.tallymap, .tallymapWrite), (.line, .lineWrite), (.subst, .substWrite),
        (.gpi, .gpiWrite), (.sched, .schedWrite)] : List (Table × (Byte → Byte → Half → List Byte → Instr))),
      ∀ (i : Half) (e : List Byte), exec (w.2 src tag i e) s = setEntry w.1 src tag i e s) ∧
    (∀ v : Half,
      asks (.controllerAddressWrite src tag v) ([1, 11, 0, 0] ++ halfBytes v) ∧
      asks (.leaseWrite src tag v) ([1, 11, 0, 1] ++ halfBytes v) ∧
      asks (.freeRunIntervalWrite src tag v) ([1, 11, 0, 2] ++ halfBytes v) ∧
      asks (.switchOffsetWrite src tag v) ([1, 11, 0, 3] ++ halfBytes v) ∧
      asks (.flashCycleWrite src tag v) ([1, 11, 0, 4] ++ halfBytes v) ∧
      asks (.holdThresholdWrite src tag v) ([1, 11, 0, 5] ++ halfBytes v)) ∧
    (∀ (table : Byte) (start count : Half),
      asks (.query src tag table start count) ([0, table] ++ halfBytes start ++ halfBytes count) ∧
      asks (.loadOpen src tag table start count) ([2, table] ++ halfBytes start ++ halfBytes count)) ∧
    (∀ (seg : Byte) (data : List Byte), data.length ≤ 38 → asks (.loadData src tag seg data) ([3, seg] ++ data)) ∧
    (∀ m : TakeMsg, m.pairs.length ≤ 12 → asks (.take src tag m)
      ([4, m.mode, m.epoch, m.count] ++ m.pairs.flatMap fun p => p.1 :: halfBytes p.2)) ∧
    (∀ dest mode : Byte, asks (.protect src tag dest mode) [5, dest, mode] ∧ asks (.release src tag dest) [6, dest] ∧
      asks (.airlock src tag dest) [7, dest]) ∧
    asks (.showLock src tag) [8] ∧
    (∀ k : Fin 16, asks (.clearEventFlag src tag k) (9 :: bitmap 3 (2 ^ k.val))) ∧
    asks (.clearPortCounters src tag) [9, 0, 0, 0x01] ∧ asks (.clearCellCounters src tag) [9, 0, 0, 0x02] ∧
    asks (.clearPanelCounters src tag) [9, 0, 0, 0x04] ∧ asks (.clearTallyCounters src tag) [9, 0, 0, 0x08] ∧
    asks (.clearCollisionFlags src tag) [9, 0, 0, 0x10] ∧ asks (.clearClippedFlags src tag) [9, 0, 0, 0x20] ∧
    asks (.clearLampFaults src tag) [9, 0, 0, 0x40] ∧
    (∀ page : Byte, asks (.status src tag page) [10, page]) ∧ asks (.identify src tag) [11] ∧
    asks (.resetPrepare src tag) [12] ∧ asks (.resetExecute src tag) [13] ∧
    (∀ kind : Byte, 14 ≤ kind.toNat → asks (.unknownRequest src tag kind) [kind])

/-! ### The Trunk Interface -/

/-- R5, R7, R12, R22, R23, R24: an arriving frame moves its input as the table says, whatever else it brings; the other input keeps
its lock. A bad header raises the port's counter and its integrity, and enters the opposite forwarding buffer where that
output is FORWARDED once the roles are known (log 16); where it takes the input to LOST the roles are recomputed and then
LINK_CHANGE reported (log 7), and the frame enters no buffer; it does nothing else. A good header on an input that is still
not LOCKED moves the input alone. One that completes a lock has the roles recomputed and LINK_CHANGE reported (log 7), and is
then taken as on the LOCKED input it leaves (HeadshipJudged, FramesRead; log 16). (A third bad frame of an interval leaves the
integrity as it stands, log 26.) -/
def Obligations.ArrivalMovesLock : Prop :=
  ∀ (p : Port) (f : WireFrame) (s : State), isMember s.trunk = true →
    ∃ t, exec (.frameArrival p f) s = .next t ∧
      (let x := portOf s.trunk p
       let y := portOf t.trunk p
       let z := portOf s.trunk (other p)
       let moved : State → State := fun u =>
         report .linkChange [portCode p, lockCode u.trunk.east.lock, lockCode u.trunk.west.lock,
           contentCode (content u.trunk .east), contentCode (content u.trunk .west), roleCode (roleOf u.trunk)]
           (rolesChanged s.trunk u)
       (portOf t.trunk (other p)).lock = z.lock ∧
       y.seen = true ∧ y.idlePeriods = 0 ∧ y.missed = 0 ∧
       (headerGood f = true → y.badRun = 0 ∧
         (match x.lock with
         | .noSignal => y.lock = .acquiring ∧ y.goodRun = 1
         | .acquiring => y.lock = (if 8 ≤ x.goodRun + 1 then .locked else .acquiring) ∧ y.goodRun = min (x.goodRun + 1) 8
         | .locked => y.lock = .locked ∧ y.goodRun = x.goodRun
         | .lost => y.lock = .acquiring ∧ y.goodRun = 1) ∧
         (y.lock ≠ .locked → t = s.modTrunk (modPort p fun _ =>
           { x with seen := true, idlePeriods := 0, missed := 0, badRun := 0, lock := y.lock, goodRun := y.goodRun })) ∧
         (x.lock = .acquiring → 8 ≤ x.goodRun + 1 →
           exec (.frameArrival p f) s = exec (.frameArrival p f) (moved (s.modTrunk (modPort p fun _ =>
             { x with seen := true, idlePeriods := 0, missed := 0, badRun := 0, lock := .locked, goodRun := 8 })))) ) ∧
       (headerGood f = false → Only [.trunk, .cells, .mgmt] s t ∧
         t.trunk = { s.trunk with east := t.trunk.east, west := t.trunk.west } ∧
         (x.lock = .locked → 4 ≤ x.badRun + 1 →
           t = moved (s.modTrunk (modPort p fun _ => { y with buffer := x.buffer }))) ∧
         y = { x with
           seen := true, idlePeriods := 0, missed := 0, badHeaders := min (x.badHeaders + 1) 65535, lock := y.lock
           goodRun := y.goodRun, badRun := y.badRun, integrity := y.integrity, curBad := min (x.curBad + 1) 2
           buffer := y.buffer } ∧
         (match x.lock with
         | .noSignal => y.lock = .noSignal ∧ y.goodRun = x.goodRun ∧ y.badRun = x.badRun
         | .acquiring => y.lock = (if 4 ≤ x.badRun + 1 then .lost else .acquiring) ∧ y.goodRun = 0 ∧
             y.badRun = min (x.badRun + 1) 4
         | .locked => y.lock = (if 4 ≤ x.badRun + 1 then .lost else .locked) ∧ y.goodRun = x.goodRun ∧
             y.badRun = min (x.badRun + 1) 4
         | .lost => y.lock = .lost ∧ y.goodRun = x.goodRun ∧ y.badRun = 4) ∧
         y.integrity =
           (if x.prevBad = true then .persistent
            else if x.curBad = 0 then (if x.integrity = .clean then .isolated else x.integrity)
            else if x.curBad = 1 then (if x.integrity = .persistent then .persistent else .repeated)
            else x.integrity) ∧
         y.buffer =
           (if content s.trunk p = .forwarded ∧ content t.trunk p ≠ .forwarded then none else x.buffer) ∧
         portOf t.trunk (other p) = { z with
           buffer :=
             if content t.trunk (other p) = .forwarded then some f
             else if content s.trunk (other p) = .forwarded then none
             else z.buffer } ∧
         ((x.lock = .locked ↔ y.lock = .locked) → Only [.trunk] s t)))

/-- R3, R8, R13, R15, R16, R17, R19, R22, R207: on a LOCKED input of a member, a frame of type ORIGINATED with a good
header. Its slots are the period's copy; it enters the opposite forwarding buffer where that output is FORWARDED; its cell
fares by the rows of R17: none there, its slot is free; one whose check fails is stripped and counted; the node's own is
stripped; one to this node is taken and its slot freed; one to all nodes of a known kind is taken and stays; another stays.
The closing head with both inputs LOCKED takes no cell of a CCW frame. Then marker and cell act, in either order where both
are there (log 9). The node is no active head, or one whose ring mode the frame confirms and that meets no other head's flag
in it, or that of a higher head it has reported (HeadshipJudged brings any other to this; EncodingsRoundTrip says which cell
a slot holds, whatever stands after its check). (An occupancy byte other than 1 is free by R207; the slots are the copy even
where a frame of the period gave one already, log 18; the freed slot holds 47 zero bytes, log 32; the frame is in the buffer
before its cell acts, log 35; a frame that ends early reads as the empty body, log 12.) -/
def Obligations.FramesRead : Prop :=
  ∀ (p : Port) (f : WireFrame) (s : State), isMember s.trunk = true → HeadAtRest f s.trunk →
    (portOf s.trunk p).lock = .locked → headerGood f = true → f.kind = 0xA5 →
    let b := bodyOf f
    let bad := (portOf s.trunk p).badCells
    let freed := { b with occupancy := 0, cell := List.replicate 47 0 }
    let read : FrameBody → Nat → State := fun left n => s.modTrunk fun t =>
      (if content s.trunk (other p) = .forwarded then
        modPort (other p) fun x => { x with buffer := some { f with body := some left } }
      else id) (modPort p (fun x =>
        { x with seen := true, idlePeriods := 0, missed := 0, badRun := 0, copy := some b.slots, badCells := n }) t)
    let acted : Option Cell → State → Prop := fun c u => Acted (frameMarker f) c u (exec (.frameArrival p f) s)
    let ignored := p = .east ∧ activeHead s.trunk = true ∧ s.trunk.mode = .closed ∧ s.trunk.west.lock = .locked
    (b.occupancy ≠ 1 ∨ ignored → acted none (read freed bad)) ∧
    (b.occupancy = 1 → ¬ignored →
      ((readCell b.cell).2 = false → acted none (read freed (min (bad + 1) 65535))) ∧
      (∀ c : Cell, readCell b.cell = (c, true) →
        (c.src = s.trunk.addr → acted none (read freed bad)) ∧
        (c.src ≠ s.trunk.addr →
          (c.dest = 63 → acted (if c.kind.toNat ≤ 10 then some c else none) (read b bad)) ∧
          (c.dest = s.trunk.addr → acted (some c) (read freed bad)) ∧
          (c.dest ≠ 63 → c.dest ≠ s.trunk.addr → acted none (read b bad)))))

/-- R6, R7, R12, R23, R24: a missing frame that falls due is counted: the lock moves as for a bad header, the interval's bad
frame is counted, the strap, the ring mode and the headship marks stand, and nothing beyond the Trunk Interface, its reports and the pruning of cells changes; an input that leaves
LOCKED has the roles recomputed and then LINK_CHANGE reported (the report last, log 7). One that is not due changes nothing (log 3). (A third bad frame of
an interval leaves the integrity as it stands, log 26.) -/
def Obligations.MissingFrameCounted : Prop :=
  ∀ (p : Port) (s : State), isMember s.trunk = true →
    let x := portOf s.trunk p
    let due := x.seen = true ∧ x.lock ≠ .noSignal ∧ x.missed + 2 ≤ x.idlePeriods
    (¬due → exec (.missingFrame p) s = .next s) ∧
    (due → ∃ t, exec (.missingFrame p) s = .next t ∧ Only [.trunk, .cells, .mgmt] s t ∧
      t.trunk = { s.trunk with east := t.trunk.east, west := t.trunk.west } ∧
      (let y := portOf t.trunk p
       y.missed = x.missed + 1 ∧ y.badHeaders = x.badHeaders ∧
       y.lock = (if x.lock = .lost ∨ 4 ≤ x.badRun + 1 then .lost else x.lock) ∧
       y.badRun = (if x.lock = .lost then 4 else min (x.badRun + 1) 4) ∧
       y.goodRun = (if x.lock = .acquiring then 0 else x.goodRun) ∧
       y.curBad = min (x.curBad + 1) 2 ∧
       y.integrity =
         (if x.prevBad = true then .persistent
          else if x.curBad = 0 then (if x.integrity = .clean then .isolated else x.integrity)
          else if x.curBad = 1 then (if x.integrity = .persistent then .persistent else .repeated)
          else x.integrity)) ∧
      ((x.lock = .locked → x.badRun + 1 < 4) → Only [.trunk] s t ∧
        portOf t.trunk (other p) = portOf s.trunk (other p)) ∧
      (x.lock = .locked → 4 ≤ x.badRun + 1 → ∃ u, Only [.trunk] s u ∧
        u.trunk = modPort p (fun _ => { portOf t.trunk p with buffer := x.buffer }) s.trunk ∧
        t = report .linkChange [portCode p, lockCode u.trunk.east.lock, lockCode u.trunk.west.lock,
          contentCode (content u.trunk .east), contentCode (content u.trunk .west), roleCode (roleOf u.trunk)]
          (rolesChanged s.trunk u)))

/-- R8, R10, R11, R12, R24: a frame with a good header on a LOCKED input is judged before it acts. An IDLE frame is judged
for a second head, counted, and enters the opposite buffer where that output is FORWARDED. An ORIGINATED frame is judged for a
second head and then for the ring mode; whatever slots, marker and cell it brings, it then does what it does at the node so
judged, where it moves neither again (FramesRead says what that is). (HEAD_CONFLICT and LINK_CHANGE come after the roles and
before the rest, log 7; the roles so judged settle the frame's own fate, log 16.) -/
def Obligations.HeadshipJudged : Prop :=
  ∀ (p : Port) (f : WireFrame) (s : State), isMember s.trunk = true → (portOf s.trunk p).lock = .locked →
    headerGood f = true →
    (f.kind = 0x5A → ∃ c, ConflictJudged f s c ∧ exec (.frameArrival p f) s = .next (c.modTrunk fun t =>
      (if content c.trunk (other p) = .forwarded then modPort (other p) fun x => { x with buffer := some f } else id)
        (modPort p (fun x => { x with seen := true, idlePeriods := 0, missed := 0, badRun := 0 }) t))) ∧
    (f.kind = 0xA5 → ∃ c m, ConflictJudged f s c ∧ ModeJudged f c m ∧ HeadAtRest f m.trunk ∧ isMember m.trunk = true ∧
      (portOf m.trunk p).lock = .locked ∧ exec (.frameArrival p f) s = exec (.frameArrival p f) m)

/-- R19, R30, R31, R33, R34, R35: a marker handed on to a member. Acted on, the epoch becomes the marker's, the count
restarts, both outputs take a relay mark and the switch point is delivered; with the epoch already held, only a path end's
count restarts. An active head that knows its epoch does nothing; one whose epoch is UNKNOWN acts as a member would, relay
marks included (log 13). (A relay mark takes the place of whatever mark stood on the output, log 17.) -/
def Obligations.MarkerTaken : Prop :=
  ∀ (e : Epoch) (s : State), isMember s.trunk = true →
    let acted := deliver e
      { s with
        sp := { s.sp with epoch := some e, freeRun := 0, origin := .marker }
        trunk := { s.trunk with
          east := { s.trunk.east with mark := some { epoch := e, relay := true } }
          west := { s.trunk.west with mark := some { epoch := e, relay := true } } } }
    (activeHead s.trunk = true → s.sp.epoch ≠ none → takeMarker e s = s) ∧
    (activeHead s.trunk = true → s.sp.epoch = none → takeMarker e s = acted) ∧
    (activeHead s.trunk = false → s.sp.epoch = some e → takeMarker e s =
      if freeRuns s.trunk = true then { s with sp := { s.sp with freeRun := 0 } } else s) ∧
    (activeHead s.trunk = false → s.sp.epoch ≠ some e → takeMarker e s = acted)

/-- R3, R4, R5, R9, R12, R32, R34: an output whose content is IDLE sends this node's IDLE frame and drops an unplaced mark; a
frame with a bad header in the forwarding buffer leaves as it arrived, and a head's pending mark waits. Nothing else
changes. -/
def Obligations.IdleAndBadFramesSent : Prop :=
  ∀ (p : Port) (s : State), isMember s.trunk = true → (portOf s.trunk p).sent = false →
    (content s.trunk p = .idle → ∃ f : WireFrame, f.kind = 0x5A ∧ f.body = none ∧ headerGood f = true ∧
      originator f = s.trunk.addr &&& 0x3F ∧ headFlag f = (activeHead s.trunk || s.trunk.addr.getLsbD 7) ∧
      headPassed f = s.trunk.addr.getLsbD 6 ∧ frameMarker f = none ∧
      exec (.outputFrameSend p) s = .next (s.modTrunk (modPort p fun x =>
        { x with buffer := none, mark := none, sent := true, out := some f }))) ∧
    (∀ f, content s.trunk p = .forwarded → (portOf s.trunk p).buffer = some f → headerGood f = false →
      exec (.outputFrameSend p) s = .next (s.modTrunk (modPort p fun x =>
        { x with
          buffer := none, sent := true, out := some f
          mark := match x.mark with | some m => if m.relay = true then none else some m | none => none })))

/-- R3, R4, R9, R14, R18, R32, R34, R62, R207, R208: an ORIGINATED frame, or a substitute for an empty buffer or an IDLE frame in it,
carries this node's address and flags, a valid check and the output's mark, which is then cleared; the spare
bits of its marker byte, and its epoch byte without a marker, are 0. Its body starts with no
valid slot and a free cell slot, and takes this node's insertions and the cell granted in its direction, where the node
inserts in it; besides the Trunk Interface only what these two do changes, in the router the collision flags alone.
(The slots that are not valid and a free cell slot hold zeros, log 32; insertions come before the grant, log 7.) -/
def Obligations.MadeFramesSent : Prop :=
  ∀ (p : Port) (s : State), isMember s.trunk = true → (portOf s.trunk p).sent = false → s.trunk.addr.toNat ≤ 62 →
    (content s.trunk p = .originated ∨ (content s.trunk p = .forwarded ∧
      ((portOf s.trunk p).buffer = none ∨
        ∃ x, (portOf s.trunk p).buffer = some x ∧ headerGood x = true ∧ x.kind = 0x5A))) →
    let ins := insertAll emptyBody (portDir p) s.trunk.addr s
    let won := grant (portDir p) ins.1
    let filled : FrameBody := match won.2 with
      | some c => { ins.2 with occupancy := 1, cell := cellWire c }
      | none => { ins.2 with occupancy := 0, cell := List.replicate 47 0 }
    ∃ (t : State) (f : WireFrame), exec (.outputFrameSend p) s = .next t ∧ Only [.trunk, .cells, .router, .mgmt] s t ∧
      t.trunk = modPort p (fun x => { x with buffer := none, mark := none, sent := true, out := some f }) s.trunk ∧
      f.kind = 0xA5 ∧ headerGood f = true ∧ originator f = s.trunk.addr ∧ headFlag f = activeHead s.trunk ∧
      headPassed f = activeHead s.trunk ∧ frameMarker f = (portOf s.trunk p).mark.map (·.epoch) ∧
      f.marker &&& 0x7F = 0 ∧ (frameMarker f = none → f.epoch = 0) ∧
      (inserts s.trunk (portDir p) = true → f.body = some filled ∧ t = { won.1 with trunk := t.trunk }) ∧
      (inserts s.trunk (portDir p) = false → f.body = some emptyBody ∧ Only [.trunk] s t) ∧
      t.router = { s.router with routes := t.router.routes } ∧
      (∀ d : DestId, t.router.routes[d] = { s.router.routes[d] with collision := t.router.routes[d].collision })

/-- R3, R4, R9, R14, R18, R32, R34, R62, R207, R208: a good ORIGINATED frame in the forwarding buffer leaves with its type, originator
and head flag, with the head-passed mark set by an active head, with its own marker where no pending mark of a head replaces
it; a relay mark is dropped. Its body takes this node's insertions and, where its cell slot is free, the cell granted in its
direction; besides the Trunk Interface only what these two do changes, in the router the collision flags alone.
(A cell slot that stays free leaves with 47 zero bytes, log 32; insertions come before the grant, log 7; a frame that ended
after its header has the empty body, log 12; the spare bits of its marker byte leave as 0, as does the
epoch byte of one without a marker, log 20.) -/
def Obligations.ForwardedFramesSent : Prop :=
  ∀ (p : Port) (f : WireFrame) (s : State), isMember s.trunk = true → (portOf s.trunk p).sent = false →
    content s.trunk p = .forwarded → (portOf s.trunk p).buffer = some f → headerGood f = true → f.kind = 0xA5 →
    let ins := insertAll (bodyOf f) (portDir p) (originator f) s
    let won := grant (portDir p) ins.1
    let filled : FrameBody := match won.2 with
      | some c => { ins.2 with occupancy := 1, cell := cellWire c }
      | none => { ins.2 with occupancy := 0, cell := List.replicate 47 0 }
    ∃ (t : State) (g : WireFrame), exec (.outputFrameSend p) s = .next t ∧ Only [.trunk, .cells, .router, .mgmt] s t ∧
      t.trunk = modPort p (fun x => { x with buffer := none, mark := none, sent := true, out := some g }) s.trunk ∧
      g.kind = 0xA5 ∧ headerGood g = true ∧ originator g = originator f ∧ headFlag g = headFlag f ∧
      headPassed g = (headPassed f || activeHead s.trunk) ∧
      frameMarker g = (match (portOf s.trunk p).mark with
        | some m => if m.relay = true then frameMarker f else some m.epoch
        | none => frameMarker f) ∧
      g.marker &&& 0x7F = 0 ∧ (frameMarker g = none → g.epoch = 0) ∧
      inserts s.trunk (portDir p) = true ∧
      ((bodyOf f).occupancy = 1 → g.body = some ins.2 ∧ t = { ins.1 with trunk := t.trunk }) ∧
      ((bodyOf f).occupancy ≠ 1 → g.body = some filled ∧ t = { won.1 with trunk := t.trunk }) ∧
      t.router = { s.router with routes := t.router.routes } ∧
      (∀ d : DestId, t.router.routes[d] = { s.router.routes[d] with collision := t.router.routes[d].collision })

/-- R62, R63, R64, R210: the insertions into one frame. A slot that one entry inserts into takes the entry's value when it
arrived not valid; arrived valid, it is left alone and the entry's collision flag is set. A slot that no entry names is
left alone. Of the router only the collision flags change, and those alone that a collision of this frame sets. Each collision of an entry whose flag was
clear is reported with its destination, slot, direction, the frame's originator and the epoch, in ascending insert entry
(log 7). -/
def Obligations.SlotsInserted : Prop :=
  ∀ (b : FrameBody) (d : Dir) (orig : Byte) (s : State),
    let r := insertAll b d orig s
    Only [.router, .cells, .mgmt] s r.1 ∧ r.2.occupancy = b.occupancy ∧ r.2.cell = b.cell ∧
    (∀ t : SlotId, (∀ (n : Fin 32) (x : Sample), s.router.insertions[n] ≠ some (t, x)) → r.2.slots[t] = b.slots[t]) ∧
    (∀ (n : Fin 32) (t : SlotId) (x : Sample), s.router.insertions[n] = some (t, x) →
      (∀ (m : Fin 32) (y : Sample), m ≠ n → s.router.insertions[m] ≠ some (t, y)) →
      (slotValid b.slots[t] = false → r.2.slots[t] = { mark := 1, sample := x }) ∧
      (slotValid b.slots[t] = true → r.2.slots[t] = b.slots[t] ∧
        (s.router.routes[(⟨n.val + 32, by omega⟩ : DestId)].collision = false →
          r.1.mgmt.sticky.getLsbD 4 = true))) ∧
    r.1.router = { s.router with routes := r.1.router.routes } ∧
    (∀ i : DestId, r.1.router.routes[i] = { s.router.routes[i] with collision := r.1.router.routes[i].collision } ∧
      (r.1.router.routes[i].collision = true ↔ s.router.routes[i].collision = true ∨
        ∃ (n : Fin 32) (t : SlotId) (x : Sample), i.val = n.val + 32 ∧ s.router.insertions[n] = some (t, x) ∧
          slotValid b.slots[t] = true)) ∧
    r.1 = (List.finRange 32).foldl (fun u (n : Fin 32) =>
      let i : DestId := ⟨n.val + 32, by omega⟩
      match s.router.insertions[n] with
      | none => u
      | some (k, _) =>
        if slotValid b.slots[k] = true ∧ s.router.routes[i].collision = false then
          report .slotCollision ([b8 i.val, b8 k.val, match d with | .cw => 0 | .ccw => 1, orig] ++ epochBytes s.sp.epoch)
            { u with router := { u.router with
              routes := u.router.routes.set i { s.router.routes[i] with collision := true } } }
        else u) s

/-! ### The sample period -/

/-- R15, R29, R30, R35, R59, R60, R61, R62, R126, R152, R173, R179: a sample period of a
member. Each local output delivers the value of the source that was active at the start of the period, each insert entry with a slot and a source prepares its insertion, each lamp
line is driven for the frame, and every frame count moves on by one; what the next period reads is taken from the tables as
they then stand. The value of a trunk slot is the copy read on West when it is valid, else that read on East when it is
valid, else absent and 0. The end of the period is where the model counts its frames (log 3). The
sample of the GPIs and the start of a lamp period fall due as their counts come to 0 (log 21). The counts without a width
never wrap (log 33). The marks of a lamp line that hold for one frame are the model's (log 8): `tripped`, by which a line stays on in the frame of its fault
(log 44), and `heldOff`, by which a cleared line stays off for its frame (log 56). -/
def Obligations.PeriodDelivers : Prop :=
  (∀ (t : Trunk) (n : SlotId),
    let valid : Option (Vector WireSlot 128) → Sample → Prop := fun c x =>
      ∃ v, c = some v ∧ slotValid v[n] = true ∧ v[n].sample = x
    (∀ x, valid t.west.copy x → slotValue t n = some x ∧ slotSample t n = x) ∧
    (∀ x, (∀ y, ¬valid t.west.copy y) → valid t.east.copy x → slotValue t n = some x ∧ slotSample t n = x) ∧
    ((∀ y, ¬valid t.west.copy y) → (∀ y, ¬valid t.east.copy y) → slotValue t n = none ∧ slotSample t n = 0)) ∧
  ∀ (tdm : Vector Sample 32) (s : State), isMember s.trunk = true →
    ∃ t, exec (.samplePeriod tdm) s = .next t ∧
      (let value : Source → Sample := fun x =>
        match x with
        | .silence => 0
        | .tdm n => tdm[n]
        | .slot n => slotSample s.trunk n
        | .mix m => t.mix.recs[m].prev
       (∀ n : Fin 32, t.router.tdmOut[n] = value s.start.routes[(⟨n.val, by omega⟩ : DestId)].active) ∧
       (∀ n : Fin 32, t.router.insertions[n] =
         (let e := s.start.routes[(⟨n.val + 32, by omega⟩ : DestId)]
          match e.slot with
          | none => none
          | some k => if e.active = .silence then none else some (k, value e.active)))) ∧
      t.router = { s.router with tdmOut := t.router.tdmOut, insertions := t.router.insertions } ∧
      t.lamp = { s.lamp with
        lampOut := t.lamp.lampOut, lines := t.lamp.lines, periodCount := (s.lamp.periodCount + 1) % 192
        periodDue := decide ((s.lamp.periodCount + 1) % 192 = 0), senseDue := true } ∧
      (∀ w : WireId, t.lamp.lampOut[w] = drivenOn s w ∧ t.lamp.lines[w] = { s.lamp.lines[w] with
        onSeen := s.lamp.lines[w].onSeen || drivenOn s w, tripped := false, heldOff := false }) ∧
      t.tally = { s.tally with
        gpiCount := (s.tally.gpiCount + 1) % 48, gpiDue := decide ((s.tally.gpiCount + 1) % 48 = 0) } ∧
      t.sp = { s.sp with
        sincePulse := s.sp.sincePulse + 1, schedule := s.sp.schedule.map (· - 1), freeRun := s.sp.freeRun + 1
        sinceReset := s.sp.sinceReset + 1, pulseTaken := false, made := false } ∧
      t.trunk = { s.trunk with east := t.trunk.east, west := t.trunk.west } ∧
      (∀ p, portOf t.trunk p = { portOf s.trunk p with
        idlePeriods := if (portOf s.trunk p).seen = true then (portOf s.trunk p).idlePeriods + 1 else 0
        copy := none, sent := false }) ∧
      t.panel = { s.panel with lines := t.panel.lines } ∧
      (∀ i : LineId, t.panel.lines[i] = { s.panel.lines[i] with
        timeout := if s.panel.lines[i].state = .absent then s.panel.lines[i].timeout
          else s.panel.lines[i].timeout + 1 }) ∧
      t.start = { routes := t.router.routes, recs := t.mix.recs, direct := t.talk.direct, confs := t.talk.confs } ∧
      Only [.trunk, .sp, .cells, .router, .mix, .panel, .tally, .lamp, .mgmt, .start] s t

/-- R109, R113 to R119, R210: one mix output in a sample period: the samples of its contributing set, the programme, the exact
accumulator, one saturation; the delivered sample, the clipped flag and its report; and g after the step for the period that
follows. The CLIPPED reports of the period carry output, epoch and limit, in ascending output (log 7). (The period ends, and the step of
R115 for the next is taken at its start, in SAMPLE_PERIOD: logs 3 and 24. In the period of an in-band reset too the result, its
clipping and the set come from the period's start: logs 34 and 58.) -/
def Obligations.MixComputed : Prop :=
  ∀ (tdm : Vector Sample 32) (s : State) (m : MixId), isMember s.trunk = true →
    ∃ t, exec (.samplePeriod tdm) s = .next t ∧
      (let r := s.start.recs[m]
       let set := contribSet s.start m
       let rnd : Int → Int := fun v => ⌊((v + 2048 : ℤ) : ℚ) / 4096⌋
       let slotInt : SlotId → Int := fun n => (slotSample s.trunk n).toInt
       let inserter : Contrib → DestId → Prop := fun c i => 32 ≤ i.val ∧ s.start.routes[i].slot = some c.slot
       let x : Contrib → Int := fun c => (talkSample s.trunk tdm s.start c).toInt
       let p : Int :=
         if r.ifb = true then
           match r.prog with
           | some (.tdm n) => (tdm[n]).toInt
           | some (.slot n) => slotInt n
           | some (.mix n) => s.start.recs[n].prev.toInt
           | _ => 0
         else 0
       let acc : Int := (set.map fun c => rnd (x c * r.talkGain)).sum + rnd (p * r.g)
       let y : Int := rnd (acc * r.listen)
       let clips := y > 8388607 ∨ y < -8388608
       let now := s.mix.recs[m]
       let g : Nat :=
         if now.ifb = true then
           let target := if ∃ c ∈ contribSet t.start m, now.threshold ≤ c.prio.val then now.dim else now.full
           if target < now.g then max target (now.g - now.step) else min target (now.g + now.step)
         else now.g
       (∀ c ∈ set, c.node ≠ s.trunk.addr → x c = slotInt c.slot) ∧
       (∀ c ∈ set, c.node = s.trunk.addr →
         ((∀ i, ¬inserter c i) → x c = 0) ∧
         (∀ i, inserter c i → (∀ j, inserter c j → i ≤ j) → x c =
           match s.start.routes[i].active with
           | .silence => 0
           | .tdm n => (tdm[n]).toInt
           | .slot n => slotInt n
           | .mix _ => 0)) ∧
       t.mix.recs[m].prev.toInt = (if y > 8388607 then 8388607 else if y < -8388608 then -8388608 else y) ∧
       (t.mix.recs[m].clipped = true ↔ now.clipped = true ∨ clips) ∧
       t.mix.recs[m] = { now with g := g, prev := t.mix.recs[m].prev, clipped := t.mix.recs[m].clipped } ∧
       (clips → now.clipped = false → t.mgmt.sticky.getLsbD 7 = true) ∧
       t.mix.contrib[m] = set ∧
       (let told := (List.finRange 24).foldl (fun u (n : MixId) =>
          if s.mix.recs[n].clipped = false ∧ t.mix.recs[n].clipped = true then
            report .clipped ([b8 n.val] ++ epochBytes s.sp.epoch ++
              [if 0 ≤ t.mix.recs[n].prev.toInt then 0 else 1]) u
          else u) s
        t.cells = told.cells ∧ t.mgmt = told.mgmt))

/-- R110, R111, R112: the contributing set: of the gathered entries whose slot is not the output's own source, one for
each slot, the first that names it, with the highest priority of all that name it. -/
def Obligations.ContributingSet : Prop :=
  ∀ (start : PeriodStart) (m : MixId),
    let r := start.recs[m]
    let all := start.direct[m] ++ r.subs.flatMap fun c => start.confs[c].list
    let set := contribSet start m
    (set.map (·.slot)).Nodup ∧ (∀ c ∈ set, r.own ≠ some c.slot) ∧
    (∀ t ∈ all, r.own ≠ some t.slot → ∃ c ∈ set, c.slot = t.slot) ∧
    (∀ c ∈ set,
      (∃ pre x post, all = pre ++ x :: post ∧ (∀ y ∈ pre, y.slot ≠ c.slot) ∧ x.slot = c.slot ∧ c.node = x.node ∧
        c.origin = x.origin ∧ c.point = x.point) ∧
      (∀ t ∈ all, t.slot = c.slot → t.prio ≤ c.prio) ∧ (∃ t ∈ all, t.slot = c.slot ∧ t.prio = c.prio))

/-! ### Switch points -/

/-- R28, R29, R31: REFERENCE_PULSE, REFERENCE_LOST and EPOCH_HOLD_OFF_END at a member, when each acts and when it leaves
the node as it is. (A command that is not due changes nothing: log 3; `holdEnded` and the count since reset are marks of the
model, log 8; I is read as it stands, log 43.) -/
def Obligations.ReferenceMoved : Prop :=
  ∀ s : State, isMember s.trunk = true →
    let lost := activeHead s.trunk = true ∧ s.sp.ref = .ok ∧ 2 * s.mgmt.params.interval ≤ s.sp.sincePulse
    let free := activeHead s.trunk = true ∧ s.sp.epoch = none ∧ s.mgmt.params.interval ≤ s.sp.sinceReset
    let pulsed : State := { s with sp := { s.sp with
      pulseTaken := true, sincePulse := 0, ref := .ok
      schedule := if s.sp.schedule.length < 16 then s.sp.schedule ++ [s.mgmt.params.offset] else s.sp.schedule } }
    (activeHead s.trunk = false ∨ s.sp.pulseTaken = true → exec .referencePulse s = .next s) ∧
    (activeHead s.trunk = true → s.sp.pulseTaken = false → s.sp.ref = .ok → exec .referencePulse s = .next pulsed) ∧
    (activeHead s.trunk = true → s.sp.pulseTaken = false → s.sp.ref = .lost →
      exec .referencePulse s = .next (report .referenceOk (epochBytes s.sp.epoch) pulsed)) ∧
    (lost → exec .referenceLost s = .next
      (report .referenceLost (epochBytes s.sp.epoch) { s with sp := { s.sp with ref := .lost } })) ∧
    (¬lost → exec .referenceLost s = .next s) ∧
    (free → exec .epochHoldOffEnd s = .next { s with sp := { s.sp with holdEnded := true } }) ∧
    (¬free → exec .epochHoldOffEnd s = .next s)

/-- R29 to R32, R34, R35: LOCAL_SWITCH_POINT, SCHEDULED_SWITCH_POINT and HEAD_FREE_RUN. An active head whose schedule holds
an entry that has run out, or whose reference is LOST and whose count stands at I, makes a switch point: the next epoch
(0 from UNKNOWN), its origin, the count at 0, a pending mark on both outputs, the delivery. Held off, or with a switch
point made in the period, the entry leaves without effect. A node that is not an active head is left as it is. A member
that is not an active head, that originates in some direction or has both outputs IDLE, whose epoch C is known and whose
count stands at I, makes the local switch point C + 1 with relay marks; else it is left as it is. (A command that is not
due changes nothing: log 3; the count restarts at a local switch point: log 19; I is read as it stands: log 43; a mark set takes
the place of whatever mark stood on the output, of the other kind too: log 17.) -/
def Obligations.SwitchPointsMade : Prop :=
  ∀ s : State, isMember s.trunk = true →
    let e : Epoch := match s.sp.epoch with | none => 0 | some c => c + 1
    let held := s.sp.epoch = none ∧ s.sp.holdEnded = false ∧ s.sp.sinceReset < s.mgmt.params.interval
    let made : List Nat → SpOrigin → State := fun l o => deliver e
      { s with
        sp := { s.sp with epoch := some e, origin := o, freeRun := 0, made := true, schedule := l }
        trunk := { s.trunk with
          east := { s.trunk.east with mark := some { epoch := e, relay := false } }
          west := { s.trunk.west with mark := some { epoch := e, relay := false } } } }
    let ends := content s.trunk .east = .originated ∨ content s.trunk .west = .originated ∨
      (content s.trunk .east = .idle ∧ content s.trunk .west = .idle)
    let due := activeHead s.trunk = false ∧ ends ∧ s.mgmt.params.interval ≤ s.sp.freeRun
    (∀ c, s.sp.epoch = some c → due → exec .localSwitchPoint s = .next (deliver (c + 1)
      { s with
        sp := { s.sp with epoch := some (c + 1), origin := .localFreeRun, freeRun := 0 }
        trunk := { s.trunk with
          east := { s.trunk.east with mark := some { epoch := c + 1, relay := true } }
          west := { s.trunk.west with mark := some { epoch := c + 1, relay := true } } } })) ∧
    (s.sp.epoch = none ∨ ¬due → exec .localSwitchPoint s = .next s) ∧
    (activeHead s.trunk = false → exec .scheduledSwitchPoint s = .next s ∧ exec .headFreeRun s = .next s) ∧
    (activeHead s.trunk = true →
      (0 ∉ s.sp.schedule → exec .scheduledSwitchPoint s = .next s) ∧
      (∀ pre post, s.sp.schedule = pre ++ 0 :: post → 0 ∉ pre →
        (s.sp.made = false → ¬held → exec .scheduledSwitchPoint s = .next (made (pre ++ post) .reference)) ∧
        (s.sp.made = true ∨ held →
          exec .scheduledSwitchPoint s = .next { s with sp := { s.sp with schedule := pre ++ post } })) ∧
      (s.sp.ref = .lost → s.mgmt.params.interval ≤ s.sp.freeRun → s.sp.made = false → ¬held →
        exec .headFreeRun s = .next (made s.sp.schedule .headFreeRun)) ∧
      (s.sp.ref ≠ .lost ∨ s.sp.freeRun < s.mgmt.params.interval ∨ s.sp.made = true ∨ held →
        exec .headFreeRun s = .next s))

/-- R23, R36, R37, R70, R135, R140, R143, R149, R153, R163, R191, R199: what the delivery of a switch point of epoch E
applies: the pending takes and buses whose targets it reaches, the local bus, the call counts, the lamps, the refusal
windows and route countdowns, the tally-follow keys of the buses that changed, the requester counts, the load's abandonment
count and the integrity interval. (The order of the blocks is log 6, the choice it counts log 5.) -/
def Obligations.SwitchPointDelivered : Prop :=
  ∀ (e : Epoch) (s : State),
    let t := deliver e s
    let reaches : Target → Bool := fun x =>
      match x with
      | .next => true
      | .epoch T => decide ((e.toNat + 256 - T.toNat) % 256 < 128)
    (∀ d : DestId, t.router.routes[d] =
      match s.router.routes[d].pending with
      | none => s.router.routes[d]
      | some p =>
        if reaches p.target then { s.router.routes[d] with active := p.source, pending := none }
        else s.router.routes[d]) ∧
    t.router = { s.router with routes := t.router.routes } ∧
    (∀ b : BusId, b ≠ 15 → t.tally.buses[b] =
      match s.tally.buses[b].pending with
      | none => s.tally.buses[b]
      | some (set, x) => if reaches x then { active := set, pending := none } else s.tally.buses[b]) ∧
    (∀ id : Byte, inSet t.tally.buses[(15 : BusId)].active id = true ↔
      ∃ i : GpiId, s.tally.gpi[i].enable = true ∧ s.tally.gpi[i].source = id ∧
        (s.tally.gpiState[i].cond = true ∨ s.tally.gpiState[i].mark = true)) ∧
    (∀ i : GpiId, t.tally.gpiState[i] = { s.tally.gpiState[i] with mark := false }) ∧
    t.tally.calls = (s.tally.calls.filter fun c => 2 ≤ c.remaining).map
      (fun c => { c with remaining := c.remaining - 1 }) ∧
    (∀ j : LampId, t.tally.drives[j] = lampDrive t.tally s.tally.map[j]) ∧
    t.tally = { s.tally with
      buses := t.tally.buses, gpiState := t.tally.gpiState, calls := t.tally.calls, drives := t.tally.drives } ∧
    (s.sp.epoch = some e → ∀ j : LampId,
      (t.tally.drives[j] = s.tally.drives[j] → t.lamp.gens[j] =
        if s.lamp.gens[j].drive = .pulse then { s.lamp.gens[j] with pulse := stepPulse e s.lamp.gens[j].pulse }
        else s.lamp.gens[j]) ∧
      (t.tally.drives[j] ≠ s.tally.drives[j] → t.lamp.gens[j] = { s.lamp.gens[j] with
        drive := t.tally.drives[j]
        pulse := if t.tally.drives[j] = .pulse then .waiting (some e) else s.lamp.gens[j].pulse })) ∧
    t.lamp = { s.lamp with gens := t.lamp.gens } ∧
    (∀ (m : MapId) (k : KeyId),
      let x := keyState s m k
      let y := keyState t m k
      let follows : BusId → Nat → Prop := fun b cap =>
        (keyEntry s m k).fn = .talkTally b cap ∧ x.active = true ∧ t.tally.buses[b].active ≠ s.tally.buses[b].active
      y = { x with
        window := match x.window with | none => none | some n => if n ≤ 1 then none else some (n - 1)
        route := match x.route with
          | .idle => .idle
          | .awaiting node tag n => if n ≤ 1 then .refused 50 else .awaiting node tag (n - 1)
          | .confirm n => if n ≤ 1 then .idle else .confirm (n - 1)
          | .refused n => if n ≤ 1 then .idle else .refused (n - 1)
        resolved := y.resolved, refusedPoints := y.refusedPoints } ∧
      (∀ b cap, follows b cap → y.resolved = resolvePoints t.tally b cap) ∧
      ((∀ b cap, ¬follows b cap) → y.resolved = x.resolved ∧ y.refusedPoints = x.refusedPoints)) ∧
    t.panel = { s.panel with keys := t.panel.keys } ∧
    (∀ i : Fin 64, t.mgmt.requesters[i] = s.mgmt.requesters[i].map fun x => { x with count := min (x.count + 1) 2 }) ∧
    (∀ m, s.mgmt.load = .closed m → t.mgmt.load = .closed m) ∧
    (∀ r, s.mgmt.load = .opened r →
      (r.abandon + 1 < 64 → t.mgmt.load = .opened { r with abandon := r.abandon + 1 }) ∧
      (64 ≤ r.abandon + 1 → t.mgmt.load = .closed none ∧ t.mgmt.sticky.getLsbD 14 = true)) ∧
    t.mgmt.params = s.mgmt.params ∧ t.mgmt.showLock = s.mgmt.showLock ∧
    (∀ p, portOf t.trunk p = { portOf s.trunk p with
      prevBad := (portOf s.trunk p).curBad != 0, curBad := 0 }) ∧
    t.trunk = { s.trunk with conflictReported := false, east := t.trunk.east, west := t.trunk.west } ∧
    t.freeCount = s.freeCount + 1 ∧
    Only [.trunk, .cells, .router, .talk, .panel, .tally, .lamp, .mgmt, .choice] s t

/-! ### Talk -/

/-- R80, R81, R89, R91, R92, R93: TALK_ON. The authority of a point is the lowest mix output that carries it, that of a
conference its home. Fields out of range or no authority: nothing. Present: the entry is renewed in its place. Room:
appended. Full: the newest of the lowest priority gives way to a strictly higher newcomer, with a DISPLACED outcome before
the GRANTED one; else DENIED. A conference announces the change. The outcome goes to a talker elsewhere as a TALK_REPLY with
the tag, to a talker of this node internally. (CONF_ON goes before GRANTED where nobody is displaced: log 49.) -/
def Obligations.TalkOnTaken : Prop :=
  (∀ (s : State) (p : PointId),
    (∀ m : MixId, s.mix.recs[m].point = some p → (∀ j : MixId, s.mix.recs[j].point = some p → m ≤ j) →
      authorityList s (.point p) = some (.direct m)) ∧
    ((∀ m : MixId, s.mix.recs[m].point ≠ some p) → authorityList s (.point p) = none)) ∧
  (∀ (s : State) (c : ConfId),
    authorityList s (.conf c) = if s.talk.confs[c].home = true then some (.conf c) else none) ∧
  (∀ (s : State) (src tag : Byte) (m : TalkOnMsg), Reaches s src →
    ((2 ≤ m.kind.toNat ∨ (m.kind = 0 ∧ 1024 ≤ m.id.toNat) ∨ (m.kind = 1 ∧ 64 ≤ m.id.toNat) ∨ 64 ≤ m.origin.toNat ∨
        128 ≤ m.slot.toNat ∨ 4 ≤ m.prio.toNat ∨ (1024 ≤ m.point.toNat ∧ m.point ≠ 0xFFFF)) →
      exec (.talkOn src tag m) s = .next s) ∧
    (∀ (target : TalkTarget) (idx : OriginId) (point : Option PointId) (slot : SlotId) (prio : Prio),
      readTalkTarget m.kind m.id = some target → m.origin.toNat = idx.val → readPointOpt m.point = some point →
      m.slot.toNat = slot.val → m.prio.toNat = prio.val →
      (authorityList s target = none → exec (.talkOn src tag m) s = .next s) ∧
      (∀ l, authorityList s target = some l → exec (.talkOn src tag m) s = .next (admitTo l target
        { node := src, origin := idx, point := point, slot := slot, prio := prio, lease := s.mgmt.params.lease }
        (some tag) s)))) ∧
  (∀ (s : State) (l : ListId) (target : TalkTarget) (T : Talker) (tag : Option Byte), ListSound (listOf s.talk l) →
    let list := listOf s.talk l
    let is : Talker → Prop := fun x => x.node = T.node ∧ x.origin = T.origin
    let tell : Talker → TalkOutcome → Byte → State → State := fun x o code u =>
      if x.node = s.trunk.addr then outcomeAt target x.origin o u
      else sendCell .talkReply x.node tag (talkTargetBytes target ++ [b8 x.origin.val, code]) u
    let put : List Talker → State := fun x => modList l (fun _ => x) s
    let on : State → State := fun u =>
      match l with
      | .direct _ => u
      | .conf c => sendCell .confOn 63 none ([b8 c.val, T.node, b8 T.origin.val] ++ pointBytes T.point ++
          [b8 T.slot.val, b8 T.prio.val, b8 T.lease]) u
    let off : Talker → State → State := fun v u =>
      match l with
      | .direct _ => u
      | .conf c => sendCell .confOff 63 none [b8 c.val, v.node, b8 v.origin.val] u
    ((∃ x ∈ list, is x) → admitTo l target T tag s =
      tell T .granted 0 (on (put (list.map fun x => if x.node = T.node ∧ x.origin = T.origin then T else x)))) ∧
    ((∀ x ∈ list, ¬is x) →
      (list.length < 8 → admitTo l target T tag s = tell T .granted 0 (on (put (list ++ [T])))) ∧
      (∀ pre v post, list = pre ++ v :: post → list.length = 8 → (∀ x ∈ pre, v.prio ≤ x.prio) →
        (∀ x ∈ post, v.prio < x.prio) →
        (T.prio ≤ v.prio → admitTo l target T tag s = tell T .denied 1 s) ∧
        (v.prio < T.prio → admitTo l target T tag s =
          tell T .granted 0 (tell v .displaced 2 (on (off v (put (pre ++ post ++ [T])))))))))

/-- R86, R89, R94: TALK_OFF removes a present talker at the authority, announced where the list is a conference's; else nothing.
TALK_REPLY moves the entry at its origin index, when it holds the target, by the table; a GRANTED that no live talk wants
is answered with TALK_OFF. An outcome handed internally does the same (R89). A
cell with a field out of range is ignored. -/
def Obligations.TalkOffAndReply : Prop :=
  ∀ (s : State) (src tag : Byte), Reaches s src →
    (∀ (kind : Byte) (id : Half) (origin outcome : Byte),
      let bad := 2 ≤ kind.toNat ∨ (kind = 0 ∧ 1024 ≤ id.toNat) ∨ (kind = 1 ∧ 64 ≤ id.toNat) ∨ 64 ≤ origin.toNat
      (bad → exec (.talkOff src tag { kind := kind, id := id, origin := origin }) s = .next s) ∧
      (bad ∨ 3 ≤ outcome.toNat →
        exec (.talkReply src tag { kind := kind, id := id, origin := origin, outcome := outcome }) s = .next s)) ∧
    (∀ (m : TalkOffMsg) (target : TalkTarget) (idx : OriginId), readTalkTarget m.kind m.id = some target →
      m.origin.toNat = idx.val →
      (authorityList s target = none → exec (.talkOff src tag m) s = .next s) ∧
      (∀ l, authorityList s target = some l →
        let is : Talker → Bool := fun x => x.node == src && x.origin == idx
        let removed := modList l (fun x => x.filter fun y => !is y) s
        ((∀ x ∈ listOf s.talk l, is x = false) → exec (.talkOff src tag m) s = .next s) ∧
        ((∃ x ∈ listOf s.talk l, is x = true) → exec (.talkOff src tag m) s = .next
          (match l with
            | .direct _ => removed
            | .conf c => sendCell .confOff 63 none [b8 c.val, src, b8 idx.val] removed)))) ∧
    (∀ (m : TalkReplyMsg) (target : TalkTarget) (idx : OriginId), readTalkTarget m.kind m.id = some target →
      m.origin.toNat = idx.val →
      let set : OriginEntry → State := fun e =>
        { s with talk := { s.talk with origins := s.talk.origins.set idx (some e) } }
      let off := sendCell .talkOff 63 none (talkTargetBytes target ++ [b8 idx.val]) s
      (3 ≤ m.outcome.toNat → exec (.talkReply src tag m) s = .next s) ∧
      (m.outcome = 0 → exec (.talkReply src tag m) s = .next (outcomeAt target idx .granted s)) ∧
      (m.outcome = 1 → exec (.talkReply src tag m) s = .next (outcomeAt target idx .denied s)) ∧
      (m.outcome = 2 → exec (.talkReply src tag m) s = .next (outcomeAt target idx .displaced s)) ∧
      (∀ e, s.talk.origins[idx] = some e → e.target = target →
        (e.state = .requested ∨ e.state = .granted ∨ e.state = .noAnswer →
          (m.outcome = 0 → exec (.talkReply src tag m) s = .next (set { e with state := .granted, unanswered := 0 })) ∧
          (m.outcome = 1 → exec (.talkReply src tag m) s = .next (set { e with state := .denied })) ∧
          (m.outcome = 2 → exec (.talkReply src tag m) s = .next (set { e with state := .displaced }))) ∧
        (e.state = .denied ∨ e.state = .displaced →
          (m.outcome = 0 → exec (.talkReply src tag m) s = .next off) ∧
          (m.outcome = 1 ∨ m.outcome = 2 → exec (.talkReply src tag m) s = .next s))) ∧
      ((∀ e, s.talk.origins[idx] = some e → e.target ≠ target) →
        (m.outcome = 0 → exec (.talkReply src tag m) s = .next off) ∧
        (m.outcome = 1 ∨ m.outcome = 2 → exec (.talkReply src tag m) s = .next s)))

/-- R97, R98: CONF_ON and CONF_OFF. Fields out of range, or a home: nothing. A mirror renews a present talker in its
place, appends where there is room, and full gives up the oldest of the smallest lease; CONF_OFF removes the talker. -/
def Obligations.MirrorsFollow : Prop :=
  ∀ (s : State) (src tag : Byte), Reaches s src →
    (∀ m : ConfOnMsg,
      (64 ≤ m.conf.toNat ∨ ¬(1 ≤ m.node.toNat ∧ m.node.toNat ≤ 62) ∨ 64 ≤ m.origin.toNat ∨ 128 ≤ m.slot.toNat ∨
        4 ≤ m.prio.toNat ∨ m.lease = 0 ∨ (1024 ≤ m.point.toNat ∧ m.point ≠ 0xFFFF)) →
      exec (.confOn src tag m) s = .next s) ∧
    (∀ (m : ConfOnMsg) (c : ConfId) (T : Talker), m.conf.toNat = c.val → 1 ≤ m.node.toNat → m.node.toNat ≤ 62 →
      m.lease ≠ 0 → T.node = m.node → T.origin.val = m.origin.toNat → T.slot.val = m.slot.toNat →
      T.prio.val = m.prio.toNat → readPointOpt m.point = some T.point → T.lease = m.lease.toNat →
      ListSound s.talk.confs[c].list →
      let list := s.talk.confs[c].list
      let put : List Talker → State := fun x => modList (.conf c) (fun _ => x) s
      (s.talk.confs[c].home = true → exec (.confOn src tag m) s = .next s) ∧
      (s.talk.confs[c].home = false →
        ((∃ x ∈ list, x.node = T.node ∧ x.origin = T.origin) → exec (.confOn src tag m) s =
          .next (put (list.map fun x => if x.node = T.node ∧ x.origin = T.origin then T else x))) ∧
        ((∀ x ∈ list, ¬(x.node = T.node ∧ x.origin = T.origin)) →
          (list.length < 8 → exec (.confOn src tag m) s = .next (put (list ++ [T]))) ∧
          (∀ pre v post, list = pre ++ v :: post → list.length = 8 → (∀ x ∈ pre, v.lease < x.lease) →
            (∀ x ∈ post, v.lease ≤ x.lease) → exec (.confOn src tag m) s = .next (put (pre ++ post ++ [T])))))) ∧
    (∀ m : ConfOffMsg,
      64 ≤ m.conf.toNat ∨ ¬(1 ≤ m.node.toNat ∧ m.node.toNat ≤ 62) ∨ 64 ≤ m.origin.toNat →
      exec (.confOff src tag m) s = .next s) ∧
    (∀ (m : ConfOffMsg) (c : ConfId) (idx : OriginId), m.conf.toNat = c.val → m.origin.toNat = idx.val →
      1 ≤ m.node.toNat → m.node.toNat ≤ 62 →
      (s.talk.confs[c].home = true → exec (.confOff src tag m) s = .next s) ∧
      (s.talk.confs[c].home = false → exec (.confOff src tag m) s =
        .next (modList (.conf c) (fun x => x.filter fun y => !(y.node == m.node && y.origin == idx)) s)))

/-- R84, R85, R209: ORIGIN_RESEND. An entry that still asks and whose countdown stands at 0 takes point, slot and priority
from its key map, moves its counts, and is sent: as a TALK_ON cell when its authority is elsewhere, internally when this
node is the authority. R95: LEASE_EXPIRY. A talker whose lease stands at 0 leaves its list: at a point's output
TALK_EXPIRED is reported, at a home CONF_OFF is sent before it, at a mirror nothing more happens. Without such an entry
or talker nothing changes. A switch point lowers both counts, and each that ends is served there as by its command; a talker
of this node in a list of this node ends with the full lease or one less, as either is taken first (R96, log 5, each talker with
a choice of its own). (CONF_OFF before TALK_EXPIRED: log 7. The commands act on a count that stands at its end, log 4; the expiries of one list go from head to
tail, log 6.) -/
def Obligations.TalkCountsEnd : Prop :=
  let asks : OriginEntry → Prop := fun e => e.state = .requested ∨ e.state = .granted ∨ e.state = .noAnswer
  let resent : State → OriginEntry → OriginEntry := fun s e =>
    { e with
      point := s.panel.maps[e.map].point, slot := s.panel.maps[e.map].slot, prio := s.panel.maps[e.map].prio
      countdown := max 1 (s.mgmt.params.lease / 4)
      unanswered := if e.state = .noAnswer then 3 else min (e.unanswered + 1) 3
      state := if e.state = .noAnswer ∨ 2 ≤ e.unanswered then .noAnswer else e.state }
  let set : State → OriginId → OriginEntry → State := fun s idx e =>
    { s with talk := { s.talk with origins := s.talk.origins.set idx (some e) } }
  (∀ (idx : OriginId) (s : State), isMember s.trunk = true →
    ((∀ e, s.talk.origins[idx] = some e → ¬asks e ∨ e.countdown ≠ 0) → exec (.originResend idx) s = .next s) ∧
    (∀ e, s.talk.origins[idx] = some e → asks e → e.countdown = 0 →
      let k := s.panel.maps[e.map]
      let t := set s idx (resent s e)
      (authorityList s e.target = none → exec (.originResend idx) s = .next (sendCell .talkOn 63 none
        ((match e.target with | .point p => 0 :: b16 p.val | .conf c => 1 :: b16 c.val) ++ [b8 idx.val] ++
          (match k.point with | none => [0xFF, 0xFF] | some p => b16 p.val) ++ [b8 k.slot.val, b8 k.prio.val]) t)) ∧
      (∀ l, authorityList s e.target = some l → exec (.originResend idx) s = .next (admitTo l e.target
        { node := s.trunk.addr, origin := idx, point := k.point, slot := k.slot, prio := k.prio
          lease := s.mgmt.params.lease } none t))) ∧
    -- the entry at a switch point
    ((∀ e, s.talk.origins[idx] = some e → ¬asks e) → refreshOrigin idx s = s) ∧
    (∀ e, s.talk.origins[idx] = some e → asks e →
      exec (.originResend idx) (set s idx { e with countdown := e.countdown - 1 }) = .next (refreshOrigin idx s))) ∧
  (∀ (l : ListId) (node : Byte) (idx : OriginId) (s : State), isMember s.trunk = true →
    let ended := ∃ x ∈ listOf s.talk l, x.node = node ∧ x.origin = idx ∧ x.lease = 0
    let removed := modList l (fun x => x.filter fun y => !(y.node == node && y.origin == idx)) s
    (¬ended → exec (.leaseExpiry l node idx) s = .next s) ∧
    (ended →
      (∀ m p, l = .direct m → s.mix.recs[m].point = some p → exec (.leaseExpiry l node idx) s = .next
        (report .talkExpired ([0] ++ b16 p.val ++ [node, b8 idx.val] ++ epochBytes s.sp.epoch) removed)) ∧
      (∀ m, l = .direct m → s.mix.recs[m].point = none → exec (.leaseExpiry l node idx) s = .next removed) ∧
      (∀ c, l = .conf c → s.talk.confs[c].home = true → exec (.leaseExpiry l node idx) s = .next
        (report .talkExpired ([1] ++ b16 c.val ++ [node, b8 idx.val] ++ epochBytes s.sp.epoch)
          (sendCell .confOff 63 none [b8 c.val, node, b8 idx.val] removed))) ∧
      (∀ c, l = .conf c → s.talk.confs[c].home = false → exec (.leaseExpiry l node idx) s = .next removed))) ∧
  -- a list at a switch point: every lease falls by one, then those that ended are served, oldest first
  (∀ (l : ListId) (s : State), isMember s.trunk = true → ListSound (listOf s.talk l) →
    let lowered := modList l (fun x => x.map fun y => { y with lease := y.lease - 1 }) s
    countdownList l s = ((listOf s.talk l).filter fun x => x.lease ≤ 1).foldl
      (fun u x => match exec (.leaseExpiry l x.node x.origin) u with | .next v => v | _ => u) lowered) ∧
  -- the whole of it, no tally-follow key active
  (∀ (e : Epoch) (s : State), ListsSound s.talk →
    (∀ (m : MapId) (k : KeyId) b cap, (keyEntry s m k).fn = .talkTally b cap → (keyState s m k).active = false) →
    let t := deliver e s
    ((∀ (i : OriginId) x, s.talk.origins[i] = some x → authorityList s x.target = none) →
      (∀ l, listOf t.talk l = ((listOf s.talk l).filter fun x => 2 ≤ x.lease).map
        fun x => { x with lease := x.lease - 1 }) ∧
      (∀ i : OriginId, (s.talk.origins[i] = none → t.talk.origins[i] = none) ∧
        ∀ x, s.talk.origins[i] = some x →
          (¬asks x → t.talk.origins[i] = some x) ∧
          (asks x → 2 ≤ x.countdown → t.talk.origins[i] = some { x with countdown := x.countdown - 1 }) ∧
          (asks x → x.countdown ≤ 1 → t.talk.origins[i] = some (resent s x)))) ∧
    (∀ (i : OriginId) x l, s.talk.origins[i] = some x → asks x → x.countdown ≤ 1 → authorityList s x.target = some l →
      (∀ j y, j ≠ i → s.talk.origins[j] = some y → authorityList s y.target = none) →
      (∃ y ∈ listOf s.talk l, y.node = s.trunk.addr ∧ y.origin = i) → 2 ≤ s.mgmt.params.lease →
      ∃ y ∈ listOf t.talk l, y.node = s.trunk.addr ∧ y.origin = i ∧
        (y.lease = s.mgmt.params.lease ∨ y.lease = s.mgmt.params.lease - 1)))

/-! ### Tally, calls and GPIs -/

/-- R37, R38, R148: TALLY_SET. A bus of 15 or above or an unknown mode raises the reject counter. Else the pending part of
the bus is replaced, NOW and a late epoch held as NEXT; a late one is reported. R151, R152: GPI_SAMPLE, when the sample of
the frame is still to be taken: each enabled GPI is conditioned, its latch mark set as its state goes active; else nothing
changes. (The sample is guarded by the frame count, log 3.) -/
def Obligations.TallyInputsTaken : Prop :=
  (∀ (s : State) (src tag : Byte) (m : TallySetMsg), Reaches s src →
    (15 ≤ m.bus.toNat ∨ 2 ≤ m.mode.toNat → exec (.tallySet src tag m) s =
      .next { s with tally := { s.tally with rejects := min (s.tally.rejects + 1) 65535 } }) ∧
    (∀ b : BusId, m.bus.toNat = b.val → b.val < 15 →
      let held : Target → State := fun x =>
        { s with tally := { s.tally with buses := s.tally.buses.set b { s.tally.buses[b] with pending := some (m.set, x) } } }
      (m.mode = 1 → exec (.tallySet src tag m) s = .next (held .next)) ∧
      (m.mode = 0 →
        (s.sp.epoch = none → exec (.tallySet src tag m) s = .next (held (.epoch m.epoch))) ∧
        (∀ c, s.sp.epoch = some c →
          let diff := (m.epoch.toNat + 256 - c.toNat) % 256
          (1 ≤ diff ∧ diff ≤ 127 → exec (.tallySet src tag m) s = .next (held (.epoch m.epoch))) ∧
          (diff = 0 ∨ 128 ≤ diff → exec (.tallySet src tag m) s =
            .next (report .tallyLate [m.bus, m.epoch, 0, c, src] (held .next))))))) ∧
  (∀ (closed : BitVec 16) (s : State), isMember s.trunk = true →
    (s.tally.gpiDue = false → exec (.gpiSample closed) s = .next s) ∧
    (s.tally.gpiDue = true → ∃ t, exec (.gpiSample closed) s = .next t ∧ Only [.tally] s t ∧
      t.tally = { s.tally with gpiDue := false, gpiState := t.tally.gpiState } ∧
      ∀ i : GpiId,
        let g := s.tally.gpi[i]
        let x := s.tally.gpiState[i]
        let y := t.tally.gpiState[i]
        let input := closed.getLsbD i.val != g.invert
        (g.enable = false → y = x) ∧
        (g.enable = true → input = x.cond → y = { x with run := 0 }) ∧
        (g.enable = true → input ≠ x.cond → x.run + 1 ≤ g.debounce → y = { x with run := x.run + 1 }) ∧
        (g.enable = true → input ≠ x.cond → g.debounce < x.run + 1 → y.cond = input ∧ y.run = 0 ∧
          (y.mark = true ↔ x.mark = true ∨ (input = true ∧ g.latch = true)))))

/-- R159, R160, R161, R163, R164: CALL, from a cell or handed by the Key Processor, and CALL_EXPIRY. A call of no duration, of
a target not held here or of a point out of range is ignored; a present pair takes the duration in its place; room appends;
a full register gives up the oldest of the smallest count. A call that stands at 0 is removed. The lamps of the target, and
of the displaced call's target, are resolved, once after both changes (log 52). (CALL_EXPIRY acts on a count that stands at
its end, log 4.) -/
def Obligations.CallsTaken : Prop :=
  ∀ s : State, CallsSound s.tally →
    (∀ (src tag : Byte) (m : CallMsg), Reaches s src →
      (1024 ≤ m.target.toNat ∨ 1024 ≤ m.caller.toNat → exec (.call src tag m) s = .next s) ∧
      (∀ target caller : PointId, m.target.toNat = target.val → m.caller.toNat = caller.val →
        exec (.call src tag m) s = .next (takeCallFor target caller m.duration.toNat s))) ∧
    (∀ (target caller : PointId) (duration : Nat),
      let held := (∃ i : MixId, s.mix.recs[i].point = some target) ∨ (∃ i : MapId, s.panel.maps[i].point = some target) ∨
        (∃ j : LampId, s.tally.map[j].callPoint = some target)
      let new : Call := { target := target, caller := caller, remaining := duration }
      let is : Call → Prop := fun c => c.target = target ∧ c.caller = caller
      let calls := s.tally.calls
      let t := takeCallFor target caller duration s
      (duration = 0 ∨ ¬held → t = s) ∧
      (duration ≠ 0 → held → (∃ c ∈ calls, is c) → t = { s with tally := { s.tally with
        calls := calls.map fun c => if c.target = target ∧ c.caller = caller then new else c } }) ∧
      (duration ≠ 0 → held → (∀ c ∈ calls, ¬is c) →
        (calls.length < 16 → t.tally.calls = calls ++ [new] ∧ LampsResolved (fun p => p = target) s t) ∧
        (∀ pre v post, calls = pre ++ v :: post → calls.length = 16 → (∀ c ∈ pre, v.remaining < c.remaining) →
          (∀ c ∈ post, v.remaining ≤ c.remaining) →
          t.tally.calls = pre ++ post ++ [new] ∧ LampsResolved (fun p => p = target ∨ p = v.target) s t))) ∧
    (isMember s.trunk = true → ∀ target caller : PointId,
      let is : Call → Bool := fun c => c.target == target && c.caller == caller
      ((∀ c ∈ s.tally.calls, is c = true → c.remaining ≠ 0) → exec (.callExpiry target caller) s = .next s) ∧
      ((∃ c ∈ s.tally.calls, is c = true ∧ c.remaining = 0) → ∃ t, exec (.callExpiry target caller) s = .next t ∧
        t.tally.calls = s.tally.calls.filter (fun c => !is c) ∧ LampsResolved (fun p => p = target) s t))

/-- R162: a cancel, from a cell or handed by the Key Processor (`cancelCall`), removes the register's entry for its pair,
whatever is held here, and the lamps of its target are resolved; points above 1023 and a pair the register does not hold are
ignored. -/
def Obligations.CallCancelled : Prop :=
  ∀ s : State,
    (∀ target caller : PointId,
      let is : Call → Bool := fun c => c.target == target && c.caller == caller
      ((∀ c ∈ s.tally.calls, is c = false) → cancelCall target caller s = s) ∧
      ((∃ c ∈ s.tally.calls, is c = true) →
        (cancelCall target caller s).tally.calls = s.tally.calls.filter (fun c => !is c) ∧
        LampsResolved (fun p => p = target) s (cancelCall target caller s))) ∧
    (∀ (src tag : Byte) (m : CancelMsg), Reaches s src →
      (1024 ≤ m.target.toNat ∨ 1024 ≤ m.caller.toNat → exec (.callCancel src tag m) s = .next s) ∧
      (∀ target caller : PointId, m.target.toNat = target.val → m.caller.toNat = caller.val →
        exec (.callCancel src tag m) s = .next (cancelCall target caller s)))

/-! ### Lamp lines -/

/-- R158, R164, R170, R172 to R181, R184: what a lamp shows. Its drive is that of the first term satisfied, under a call the pulse
train unless that term is on air; its carrier is its link's line, else its own NORMAL line; its generator is on by its
drive: OFF and STEADY always, DIM by the level in use and the period count, FLASH by the current epoch mod F and the window
clamped to F, PULSE_TRAIN by its phase, which waits with the current epoch when it is handed; its line is driven on where the
generator is on and no fault holds it off. LAMP_PERIOD_START, when that of the frame is still to be taken, loads every level,
lets every line try again and clears a line that was on without fault, and the marks of the period judged; else nothing
changes (the guard: log 3; the marks of one frame: log 8). (A line is on in the frame of its fault, by `tripped`, log 44; a line that
CLEAR found off stays off for that frame, by `heldOff`, even where a lamp comes to it later in the frame, log 56.) -/
def Obligations.LampsShown : Prop :=
  (∀ (t : Tally) (r : TallyRec),
    let sat : Term → Bool := fun x => inSet t.buses[x.bus].active x.source
    let called := ∃ p, r.callPoint = some p ∧ ∃ c ∈ t.calls, c.target = p
    ((∀ x ∈ r.terms, sat x = false) → (called → lampDrive t r = .pulse) ∧ (¬called → lampDrive t r = .off)) ∧
    (∀ pre x post, r.terms = pre ++ x :: post → (∀ y ∈ pre, sat y = false) → sat x = true →
      (called → x.air = false → lampDrive t r = .pulse) ∧ (¬called ∨ x.air = true → lampDrive t r = x.drive))) ∧
  (∀ (l : LampDriver) (j : LampId),
    (∀ pre w post, l.links = pre ++ (j, w) :: post → (∀ y ∈ pre, y.1 ≠ j) → carrier l j = some w) ∧
    ((∀ y ∈ l.links, y.1 ≠ j) → ∀ own : WireId, own.val = j.val →
      carrier l j = if l.lines[own].role = .normal then some own else none)) ∧
  (∀ (l : LampDriver) (w : WireId),
    (∀ j : LampId, carrier l j = some w → (∀ i : LampId, carrier l i = some w → j ≤ i) → carried l w = some j) ∧
    ((∀ j : LampId, carrier l j ≠ some w) → carried l w = none)) ∧
  (∀ (s : State) (w : WireId), drivenOn s w = true ↔ ∃ j, carried s.lamp w = some j ∧
    generatorOn s.mgmt.params.flash s.sp.epoch s.lamp.periodCount s.lamp.gens[j] = true ∧
    s.lamp.lines[w].fault ≠ .latched ∧ (s.lamp.lines[w].retryOff = false ∨ s.lamp.lines[w].tripped = true) ∧
    s.lamp.lines[w].heldOff = false) ∧
  (∀ (j : LampId) (d : Drive) (s : State), handGenerator j d s = { s with lamp := { s.lamp with
    gens := s.lamp.gens.set j { s.lamp.gens[j] with
      drive := d, pulse := if d = .pulse then .waiting s.sp.epoch else s.lamp.gens[j].pulse } } }) ∧
  (∀ (f : Nat) (e : Option Epoch) (count : Nat) (g : Generator),
    (g.drive = .off → generatorOn f e count g = false) ∧
    (g.drive = .steady → generatorOn f e count g = true) ∧
    (∀ n, g.drive = .dim n → (generatorOn f e count g = true ↔ count < g.level * 12)) ∧
    (∀ a b, g.drive = .flash a b → (generatorOn f e count g = true ↔
      ∃ c, e = some c ∧
        (let p := c.toNat % f
         let a := min a f
         let b := min b f
         (a < b ∧ a ≤ p ∧ p < b) ∨ (b < a ∧ (a ≤ p ∨ p < b))))) ∧
    (g.drive = .pulse → (generatorOn f e count g = true ↔ g.pulse = .phase 0 ∨ g.pulse = .phase 1))) ∧
  (∀ E : Epoch, (∀ r, stepPulse E (.waiting r) = if r = some E then .waiting r else .phase 0) ∧
    stepPulse E (.phase 0) = .phase 1 ∧ stepPulse E (.phase 1) = .phase 2 ∧ stepPulse E (.phase 2) = .phase 3 ∧
    stepPulse E (.phase 3) = .phase 0) ∧
  (∀ s : State, isMember s.trunk = true →
    (s.lamp.periodDue = false → exec .lampPeriodStart s = .next s) ∧
    (s.lamp.periodDue = true → ∃ t, exec .lampPeriodStart s = .next t ∧ Only [.lamp] s t ∧
      t.lamp = { s.lamp with periodDue := false, gens := t.lamp.gens, lines := t.lamp.lines } ∧
      (∀ j : LampId, t.lamp.gens[j] = { s.lamp.gens[j] with
        level := match s.lamp.gens[j].drive with | .dim n => n | _ => 0 }) ∧
      ∀ w : WireId,
        let x := s.lamp.lines[w]
        let clean := x.onSeen = true ∧ x.faultSeen = false ∧ x.fault ≠ .latched
        t.lamp.lines[w] = { x with
          retryOff := false, tripped := false, onSeen := false, faultSeen := false
          count := if clean then 0 else x.count, fault := if clean then .ok else x.fault }))

/-- R179, R180, R181, R182, R183, R185, R210, R213: FAULT_SENSE, when the readings of the frame are still to be taken: the lines that
read fault are taken in ascending number, each against what those before it left; else nothing changes (logs 3, 39). The
reading of a line that is not driven on is not used, nor that of a line that carries nothing, one whose lamp a SUBST write of
the frame has moved among them (row 4 of R185, write first: log 45). A fault in RETRY mode below the eighth makes the line
RETRYING, and off from the next frame to the end of the period; the status record then holds RETRYING for it (no page lays it
out: log 53) and QUERY of LINE shows it; the eighth, or any in LATCH mode, latches it, off from that frame (log 44), reports
LAMP_FAULT and, with auto-spare, moves the lamp to the lowest free spare and reports SPARE_INSTALLED, or reports
SPARE_EXHAUSTED: no spare, or no room for a link. -/
def Obligations.FaultsSensed : Prop :=
  (∀ (reads : BitVec 48) (s : State), isMember s.trunk = true →
    (s.lamp.senseDue = false → exec (.faultSense reads) s = .next s) ∧
    (s.lamp.senseDue = true → exec (.faultSense reads) s = .next
      ((List.finRange 48).foldl (fun u w => if reads.getLsbD w.val = true then senseFault w u else u)
        { s with lamp := { s.lamp with senseDue := false } }))) ∧
  ∀ (w : WireId) (s : State),
    (carried s.lamp w = none ∨ drivenOn s w = false → senseFault w s = s) ∧
    ∀ j : LampId, carried s.lamp w = some j → drivenOn s w = true →
    let x := s.lamp.lines[w]
    let last := x.mode = .latch ∨ 8 ≤ x.count + 1
    let spare : WireId → Prop := fun v => s.lamp.lines[v].role = .spare ∧ s.lamp.lines[v].fault ≠ .latched ∧ v ≠ w ∧
      ∀ y ∈ s.lamp.links, y.2 ≠ v
    let linked := ∃ y ∈ s.lamp.links, y.1 = j
    let t := senseFault w s
    (¬last → t = { s with lamp := { s.lamp with lines := s.lamp.lines.set w { x with
      count := x.count + 1, onSeen := true, faultSeen := true, retryOff := true, tripped := true, fault := .retrying } } } ∧
      drivenOn t w = true ∧ (lampStatus t.lamp).faults[w] = .retrying ∧
      (tableBytes t .line w.val).drop 3 = [1, b8 (x.count + 1)]) ∧
    (last → Only [.lamp, .cells, .mgmt] s t ∧
      t.lamp = { s.lamp with links := t.lamp.links, lines := s.lamp.lines.set w { x with
        count := min (x.count + 1) 8, onSeen := true, faultSeen := true, retryOff := false, tripped := false
        fault := .latched } } ∧
      drivenOn t w = false ∧ t.mgmt.sticky.getLsbD 11 = true ∧
      (let latched : State := { s with lamp := { s.lamp with lines := t.lamp.lines } }
       let told := report .lampFault ([b8 w.val, b8 j.val, match x.mode with | .retry => 0 | .latch => 1,
         b8 (min (x.count + 1) 8)] ++ epochBytes s.sp.epoch) latched
       let exhausted : Byte → State := fun reason =>
         report .spareExhausted ([b8 j.val, b8 w.val, reason] ++ epochBytes s.sp.epoch) told
       (x.autoSpare = false → t = told) ∧
       (x.autoSpare = true → (∀ v, ¬spare v) → t = exhausted 0) ∧
       (x.autoSpare = true → (∃ v, spare v) → ¬linked → 8 ≤ s.lamp.links.length → t = exhausted 1) ∧
       (x.autoSpare = true → (linked ∨ s.lamp.links.length < 8) → ∀ v, spare v → (∀ u, spare u → v ≤ u) →
         t = report .spareInstalled ([b8 j.val, b8 w.val, b8 v.val, b8 t.lamp.links.length] ++ epochBytes s.sp.epoch)
           { told with lamp := { told.lamp with links := t.lamp.links } })) ∧
      (x.autoSpare = false → t.lamp.links = s.lamp.links) ∧
      (x.autoSpare = true → ((∀ v, ¬spare v) ∨ (¬linked ∧ 8 ≤ s.lamp.links.length)) →
        t.lamp.links = s.lamp.links ∧ t.mgmt.sticky.getLsbD 13 = true) ∧
      (x.autoSpare = true → (linked ∨ s.lamp.links.length < 8) → ∀ v, spare v → (∀ u, spare u → v ≤ u) →
        t.mgmt.sticky.getLsbD 12 = true ∧ carrier t.lamp j = some v ∧
        (linked → t.lamp.links = s.lamp.links.map fun y => if y.1 = j then (j, v) else y) ∧
        (¬linked → t.lamp.links = s.lamp.links ++ [(j, v)])))

/-! ### Keys and panels -/

/-- R132, R140, R143: KEY_WINDOW_END, ROUTE_COUNTDOWN_END, AUTO_HOLD_REACHED and the REPLY that an awaiting route key takes:
what each does to the running state of its key, and when each leaves the node as it is. (The first three act on a count
that stands at its end, log 4, AUTO_HOLD_REACHED also outside a scan, log 23; of two keys that await one tag the lowest takes
the REPLY, log 41.) -/
def Obligations.KeyCountsEnd : Prop :=
  ∀ s : State, isMember s.trunk = true →
    let set : Fin 256 → KeyState → State := fun i x => { s with panel := { s.panel with keys := s.panel.keys.set i x } }
    (∀ (m : MapId) (k : KeyId),
      let i := keyIx m k
      let x := s.panel.keys[i]
      (x.window = some 0 → exec (.keyWindowEnd m k) s = .next (set i { x with window := none })) ∧
      (x.window ≠ some 0 → exec (.keyWindowEnd m k) s = .next s) ∧
      (∀ n tag, x.route = .awaiting n tag 0 →
        exec (.routeCountdownEnd m k) s = .next (set i { x with route := .refused 50 })) ∧
      (x.route = .confirm 0 ∨ x.route = .refused 0 →
        exec (.routeCountdownEnd m k) s = .next (set i { x with route := .idle })) ∧
      (x.route = .idle ∨ (∃ n tag c, x.route = .awaiting n tag (c + 1)) ∨ (∃ c, x.route = .confirm (c + 1)) ∨
        (∃ c, x.route = .refused (c + 1)) → exec (.routeCountdownEnd m k) s = .next s) ∧
      (x.auto = .holding → s.mgmt.params.hold ≤ x.hold →
        exec (.autoHoldReached m k) s = .next (set i { x with auto := .momentaryHold })) ∧
      (x.auto ≠ .holding ∨ x.hold < s.mgmt.params.hold → exec (.autoHoldReached m k) s = .next s)) ∧
    (∀ (src tag : Byte) (m : ReplyMsg), Reaches s src →
      let waits : Fin 256 → Prop := fun i => ∃ n, s.panel.keys[i].route = .awaiting src (some tag) n
      ((∀ i, ¬waits i) → exec (.reply src tag m) s = .next s) ∧
      (∀ i, waits i → (∀ j, waits j → i ≤ j) → exec (.reply src tag m) s = .next (set i { s.panel.keys[i] with
        route := if m.code.toNat ≤ 2 then .confirm 50 else .refused 50 })))

/-- R130, R131, R132: a key in a new scan and its mode. An input equal to the conditioned state clears the run; a
different one counts until the run exceeds the debounce, then flips the state and gives an edge, except a held key's
release. An AUTO key that holds counts each scan and, at the threshold, holds momentarily, also before it takes an edge of
the scan. MOMENTARY follows the edges, LATCHING toggles at presses, AUTO moves by its table. -/
def Obligations.KeysConditioned : Prop :=
  ∀ (m : MapId) (k : KeyId) (s : State),
    let x := keyState s m k
    let e := keyEntry s m k
    let H := s.mgmt.params.hold
    (∀ (pressed : Nat) (seen : List (KeyId × Bool)),
      let input := pressed.testBit k.val != e.invert
      let r := scanKey m pressed k (s, seen)
      let counts := e.mode = .auto ∧ x.auto = .holding ∧ x.cond = true
      let next := min (x.hold + 1) 255
      let stays : Nat → Prop := fun run => r = (modKey m k (fun y => { y with
        run := run, hold := if counts then next else x.hold
        auto := if counts ∧ H ≤ next then .momentaryHold else x.auto }) s, seen)
      (input = x.cond → stays 0) ∧
      (input ≠ x.cond → x.run + 1 ≤ e.debounce → stays (x.run + 1)) ∧
      (input ≠ x.cond → e.debounce < x.run + 1 →
        let flipped := modKey m k (fun y => { y with
          cond := input, run := 0, auto := if x.auto = .holding ∧ H ≤ x.hold then .momentaryHold else x.auto }) s
        (x.held = true → input = false → r = (modKey m k (fun y => { y with held := false }) flipped, seen)) ∧
        (x.held = false ∨ input = true → r = (takeEdge m k input flipped, (k, input) :: seen)))) ∧
    (let on := setActive m k true
     let off := setActive m k false
     let goes : AutoState → State → State := fun a => modKey m k fun y => { y with auto := a }
     (e.mode = .momentary → takeEdge m k true s = on s ∧ takeEdge m k false s = off s) ∧
     (e.mode = .latching → takeEdge m k true s = (if x.active = true then off s else on s) ∧ takeEdge m k false s = s) ∧
     (e.mode = .auto →
       (x.auto = .idle → takeEdge m k true s = on (modKey m k (fun y => { y with auto := .holding, hold := 0 }) s) ∧
         takeEdge m k false s = s) ∧
       (x.auto = .holding → takeEdge m k false s = goes .latched s ∧ takeEdge m k true s = s) ∧
       (x.auto = .momentaryHold → takeEdge m k false s = off (goes .idle s) ∧ takeEdge m k true s = s) ∧
       (x.auto = .latched → takeEdge m k true s = off (goes .ending s) ∧ takeEdge m k false s = s) ∧
       (x.auto = .ending → takeEdge m k false s = goes .idle s ∧ takeEdge m k true s = s)) ∧
     (keyState (on s) m k).active = true ∧ (keyState (off s) m k).active = false)

/-- R83, R84, R87, R89, R94, R107, R133, R134, R136 to R139: what the activation and the deactivation of a key do, by its
function, and how an origin entry is created, at the first free index from the allocation pointer, and ended. A key already
in the state asked for does nothing. (A call that a key answers is cancelled before the key's talk starts, log 7.) -/
def Obligations.KeyFunctionsAct : Prop :=
  (∀ (m : MapId) (k : KeyId) (s : State),
    let e := keyEntry s m k
    let x := keyState s m k
    let own := s.panel.maps[m].point
    let listen := s.panel.maps[m].listen
    let subs := s.mix.recs[listen].subs
    let key : (KeyState → KeyState) → State → State := fun f u =>
      { u with panel := { u.panel with keys := u.panel.keys.set (keyIx m k) (f u.panel.keys[keyIx m k]) } }
    let subscribed : List ConfId → State → State := fun l u =>
      { u with mix := { u.mix with recs := u.mix.recs.set listen { u.mix.recs[listen] with subs := l } } }
    let on := key (fun y => { y with active := true }) s
    let off := key (fun y => { y with active := false }) s
    (∀ b : Bool, x.active = b → setActive m k b s = s) ∧
    (x.active = false →
      let t := setActive m k true s
      let asked : TalkTarget → State → Prop := fun target u =>
        let r := createOrigin m k none target u
        t = if r.2 = true then r.1 else key (fun y => { y with refusedLocal := true }) r.1
      (e.fn = .none → t = on) ∧
      (∀ p, e.fn = .talkPoint p →
        (∀ o, own = some o → (∃ c ∈ s.tally.calls, c.target = o ∧ c.caller = p) →
          asked (.point p) (cancelCall o p (sendCell .callCancel 63 none (b16 o.val ++ b16 p.val) on))) ∧
        ((∀ o, own = some o → ∀ c ∈ s.tally.calls, ¬(c.target = o ∧ c.caller = p)) → asked (.point p) on)) ∧
      (∀ c, e.fn = .talkConf c → asked (.conf c) on) ∧
      (∀ b cap, e.fn = .talkTally b cap → t = (resolvePoints s.tally b cap).foldl (fun u p => startTallyTalk m k p u)
        (key (fun y => { y with resolved := resolvePoints s.tally b cap }) on)) ∧
      (∀ c, e.fn = .listenConf c →
        (c ∈ subs → t = key (fun y => { y with toggled := some .removed }) (subscribed (subs.erase c) on)) ∧
        (c ∉ subs → subs.length < 4 →
          t = key (fun y => { y with toggled := some .added }) (subscribed (subs ++ [c]) on)) ∧
        (c ∉ subs → 4 ≤ subs.length → t = key (fun y => { y with toggled := none, window := some 50 }) on)) ∧
      (∀ p d, e.fn = .call p d →
        (own = none → t = key (fun y => { y with window := some 50 }) on) ∧
        (∀ o, own = some o →
          t = takeCallFor p o d (sendCell .call 63 none (b16 p.val ++ b16 o.val ++ [b8 d]) on))) ∧
      (∀ node dest source, e.fn = .route node dest source →
        (node = s.trunk.addr →
          let r := s.router.routes[dest]
          (r.prot = .free ∨ r.prot = .protectedBy node → t = key (fun y => { y with route := .confirm 50 })
            { on with router := { s.router with routes := s.router.routes.set dest { r with
              pending := some { source := source, target := .next, requester := node } } } }) ∧
          (¬(r.prot = .free ∨ r.prot = .protectedBy node) → t = key (fun y => { y with route := .refused 50 })
            { on with router := { s.router with
              lastRefusal := some { dest := dest, requester := node, epoch := s.sp.epoch } } })) ∧
        (node ≠ s.trunk.addr →
          let r := createCell .request node none ([4, 1, 0, 1, b8 dest.val] ++ sourceBytes source) on
          t = key (fun y => { y with route := .awaiting node r.2 50 }) r.1))) ∧
    (x.active = true →
      let t := setActive m k false s
      (e.fn = .none ∨ (∃ p d, e.fn = .call p d) ∨ (∃ node dest source, e.fn = .route node dest source) → t = off) ∧
      ((∃ p, e.fn = .talkPoint p) ∨ (∃ c, e.fn = .talkConf c) →
        t = key (fun y => { y with refusedLocal := false }) (endKeyOrigin m k none off)) ∧
      ((∃ b cap, e.fn = .talkTally b cap) → t = key (fun y => { y with resolved := [], refusedPoints := [] })
        ([none, some 0, some 1, some 2, some 3].foldl (fun u i => endKeyOrigin m k i u) off)) ∧
      (∀ c, e.fn = .listenConf c →
        (x.toggled = none → t = off) ∧
        (x.toggled ≠ none →
          (c ∈ subs → t = key (fun y => { y with toggled := none }) (subscribed (subs.erase c) off)) ∧
          (c ∉ subs → subs.length < 4 → t = key (fun y => { y with toggled := none }) (subscribed (subs ++ [c]) off)) ∧
          (c ∉ subs → 4 ≤ subs.length →
            t = key (fun y => { y with toggled := none, window := some 50 }) off))))) ∧
  -- origin entries
  (∀ (m : MapId) (k : KeyId) (sub : Option (Fin 4)) (target : TalkTarget) (s : State),
    let map := s.panel.maps[m]
    let free : OriginId → Prop := fun i => s.talk.origins[i] = none
    ((∀ i, ¬free i) → createOrigin m k sub target s = (s, false)) ∧
    (∀ n : Nat, n < 64 → ∀ i : OriginId, i.val = (s.talk.pointer.val + n) % 64 → free i →
      (∀ j : OriginId, ∀ q < n, j.val = (s.talk.pointer.val + q) % 64 → ¬free j) →
      let entry : OriginEntry :=
        { map := m, key := k, sub := sub, target := target, point := map.point, slot := map.slot, prio := map.prio
          state := .requested, countdown := max 1 (s.mgmt.params.lease / 4), unanswered := 0 }
      let u : State := { s with talk := { s.talk with origins := s.talk.origins.set i (some entry), pointer := i + 1 } }
      (authorityList s target = none → createOrigin m k sub target s = (sendCell .talkOn 63 none
        (talkTargetBytes target ++ [b8 i.val] ++ pointBytes map.point ++ [b8 map.slot.val, b8 map.prio.val]) u, true)) ∧
      (∀ l, authorityList s target = some l → createOrigin m k sub target s = (admitTo l target
        { node := s.trunk.addr, origin := i, point := map.point, slot := map.slot, prio := map.prio
          lease := s.mgmt.params.lease } none u, true)))) ∧
  (∀ (i : OriginId) (s : State),
    (s.talk.origins[i] = none → endOrigin i s = s) ∧
    (∀ e, s.talk.origins[i] = some e →
      let u : State := { s with talk := { s.talk with origins := s.talk.origins.set i none } }
      (authorityList s e.target = none →
        endOrigin i s = sendCell .talkOff 63 none (talkTargetBytes e.target ++ [b8 i.val]) u) ∧
      (∀ l, authorityList s e.target = some l →
        let is : Talker → Bool := fun x => x.node == s.trunk.addr && x.origin == i
        let removed := modList l (fun x => x.filter fun y => !is y) u
        ((∀ x ∈ listOf s.talk l, is x = false) → endOrigin i s = u) ∧
        ((∃ x ∈ listOf s.talk l, is x = true) → endOrigin i s = match l with
          | .direct _ => removed
          | .conf c => sendCell .confOff 63 none [b8 c.val, s.trunk.addr, b8 i.val] removed)))) ∧
  (∀ (m : MapId) (k : KeyId) (sub : Option (Fin 4)) (s : State),
    let is : OriginId → Prop := fun i => ∃ e, s.talk.origins[i] = some e ∧ e.map = m ∧ e.key = k ∧ e.sub = sub
    ((∀ i, ¬is i) → endKeyOrigin m k sub s = s) ∧
    (∀ i, is i → (∀ j, is j → i ≤ j) → endKeyOrigin m k sub s = endOrigin i s))

/-- R134, R135, R156: tally-follow keys. The points of a bus: those that its sources have in the camera table, each once, by
the lowest source that has it, up to the cap. A point is asked for under the lowest free sub-index, or enters the refused
points. An announced bus re-resolves the active keys that follow it: points that left are ended and no longer refused,
points that joined have an entry or are refused, those that stayed keep what they had; a key that is inactive, follows
another bus or finds the same list is left as it is. (The leavers are ended in old-list order, log 46.) -/
def Obligations.BusesAnnounced : Prop :=
  (∀ (t : Tally) (b : BusId) (cap : Nat), ∃ all : List PointId,
    let from_ : Fin 256 → PointId → Prop := fun id p => t.buses[b].active.getLsbD id.val = true ∧ t.camera[id] = some p
    resolvePoints t b cap = all.take cap ∧ all.Nodup ∧ (∀ p, p ∈ all ↔ ∃ id, from_ id p) ∧
    all.Pairwise fun p q => ∃ id, from_ id p ∧ ∀ j, from_ j q → id < j) ∧
  (∀ (m : MapId) (k : KeyId) (p : PointId) (s : State),
    let used : Fin 4 → Prop := fun i =>
      ∃ (o : OriginId) (e : OriginEntry), s.talk.origins[o] = some e ∧ e.map = m ∧ e.key = k ∧ e.sub = some i
    let refuse : State → State := modKey m k fun x => { x with refusedPoints := x.refusedPoints ++ [p] }
    ((∀ i, used i) → startTallyTalk m k p s = refuse s) ∧
    (∀ i, ¬used i → (∀ j, j < i → used j) →
      let r := createOrigin m k (some i) (.point p) s
      startTallyTalk m k p s = if r.2 = true then r.1 else refuse r.1)) ∧
  (∀ (b : BusId) (m : MapId) (k : KeyId) (s : State),
    let t := announceToKey b m k s
    ((∀ cap, (keyEntry s m k).fn ≠ .talkTally b cap) ∨ (keyState s m k).active = false → t = s) ∧
    (∀ cap, (keyEntry s m k).fn = .talkTally b cap → (keyState s m k).active = true →
      let old := (keyState s m k).resolved
      let new := resolvePoints s.tally b cap
      let ofKey : OriginEntry → PointId → Prop := fun e p => e.map = m ∧ e.key = k ∧ e.target = .point p
      let leaves : PointId → Prop := fun p => p ∈ old ∧ p ∉ new
      (new = old → t = s) ∧ Only [.panel, .talk, .cells, .mgmt] s t ∧
      t.panel = { s.panel with keys := s.panel.keys.set (keyIx m k) { keyState s m k with
        resolved := new, refusedPoints := (keyState t m k).refusedPoints } } ∧
      (∀ p, leaves p → p ∉ (keyState t m k).refusedPoints ∧
        ((∀ (i j : OriginId) e e', s.talk.origins[i] = some e → s.talk.origins[j] = some e' → ofKey e p → ofKey e' p →
          i = j) → ∀ (i : OriginId) e, t.talk.origins[i] = some e → ¬ofKey e p)) ∧
      (∀ p ∈ new, p ∉ old → p ∈ (keyState t m k).refusedPoints ∨
        ∃ (i : OriginId) (e : OriginEntry), t.talk.origins[i] = some e ∧ ofKey e p ∧ e.sub ≠ none) ∧
      (∀ p ∈ new, p ∈ old → (p ∈ (keyState t m k).refusedPoints ↔ p ∈ (keyState s m k).refusedPoints)) ∧
      (∀ (i : OriginId) e, s.talk.origins[i] = some e → (∀ p, leaves p → ¬ofKey e p) →
        ∃ e', t.talk.origins[i] = some e' ∧ e'.map = e.map ∧ e'.key = e.key ∧ e'.sub = e.sub ∧ e'.target = e.target)))

/-- R108, R122, R123, R124, R125, R130, R210: SCAN. A bad message is counted and nothing else. A valid repeat restarts the
timeout, sets the knob and is answered. A new SCAN on a line that is not BOUND makes it UNBOUND, DUPLICATE or BOUND, with
the keys of the bound map conditioned and held but none activated; a change of state is reported with the line, both states,
the SCAN's panel id, the map bound after it and the epoch, and an unchanged state is not; on a line BOUND to a map of the panel's id the line
stays so. Every valid SCAN is answered by the LAMPS of the state it leaves, all OFF and RED on a line that is not BOUND. -/
def Obligations.ScansTaken : Prop :=
  ∀ (i : LineId) (bytes : List Byte) (s : State), isMember s.trunk = true →
    let ln := s.panel.lines[i]
    (readScan bytes = none → exec (.scan i bytes) s = .next { s with panel := { s.panel with
      lines := s.panel.lines.set i { ln with badScans := min (ln.badScans + 1) 65535 } } }) ∧
    (∀ sc, readScan bytes = some sc → ∃ t, exec (.scan i bytes) s = .next t ∧
      (let new := t.panel.lines[i]
       let again := ln.scanNo = some sc.scanNo ∧ ln.panelId = some sc.panelId
       let mapped : MapId → Prop := fun m => s.panel.maps[m].panelId = sc.panelId ∧
         ∀ j : MapId, s.panel.maps[j].panelId = sc.panelId → m ≤ j
       new.timeout = 0 ∧ new.badScans = ln.badScans ∧ new.lamps = some (composeLamps t i) ∧
       (new.state ≠ .bound → new.lamps = some (0xC3 :: List.replicate 32 0 ++
         halfBytes (crc (0xC3 :: List.replicate 32 0)))) ∧
       (∀ j, j ≠ i → t.panel.lines[j] = s.panel.lines[j]) ∧
       (∀ m, new.state = .bound → new.map = some m → t.mix.recs[s.panel.maps[m].listen].listen = sc.knob.toNat * 32) ∧
       (again ∨ ln.state ≠ .bound →
         t.panel = { s.panel with lines := t.panel.lines, keys := t.panel.keys } ∧
         (∀ m, new.state = .bound → new.map = some m → t.mix = { s.mix with
           recs := s.mix.recs.set s.panel.maps[m].listen
             { s.mix.recs[s.panel.maps[m].listen] with listen := sc.knob.toNat * 32 } }) ∧
         ((∀ m, new.state = .bound → new.map ≠ some m) → t.mix = s.mix)) ∧
       (again → new = { ln with timeout := 0, lamps := new.lamps } ∧ t.panel.keys = s.panel.keys ∧
         Only [.panel, .mix] s t) ∧
       (¬again → new.scanNo = some sc.scanNo ∧
         (∀ m, ln.state = .bound → ln.map = some m → s.panel.maps[m].panelId = sc.panelId →
           new.state = .bound ∧ new.map = some m ∧ new.panelId = ln.panelId) ∧
         (ln.state ≠ .bound → new.panelId = some sc.panelId ∧ Only [.panel, .mix, .cells, .mgmt] s t ∧
           (∀ n, (∀ m k, new.map = some m → n ≠ keyIx m k) → t.panel.keys[n] = s.panel.keys[n]) ∧
           (let told := report .panelChange ([b8 i.val, lineStateCode ln.state, lineStateCode new.state, sc.panelId,
              match new.map with | none => 0xFF | some m => b8 m.val] ++ epochBytes s.sp.epoch) s
            (new.state = ln.state → t.cells = s.cells ∧ t.mgmt = s.mgmt) ∧
            (new.state ≠ ln.state → t.cells = told.cells ∧ t.mgmt = told.mgmt)) ∧
           (new.state ≠ ln.state → t.mgmt.sticky.getLsbD 8 = true) ∧
           ((∀ m : MapId, s.panel.maps[m].panelId ≠ sc.panelId) → new.state = .unbound ∧ new.map = none ∧
             t.panel.keys = s.panel.keys ∧ t.mix = s.mix) ∧
           (∀ m, mapped m →
             ((∃ j : LineId, s.panel.lines[j].state = .bound ∧ s.panel.lines[j].map = some m) →
               new.state = .duplicate ∧ new.map = none ∧ t.panel.keys = s.panel.keys ∧ t.mix = s.mix) ∧
             ((∀ j : LineId, s.panel.lines[j].state = .bound → s.panel.lines[j].map ≠ some m) →
               new.state = .bound ∧ new.map = some m ∧
               ∀ k : KeyId,
                 let on := sc.pressed.testBit k.val != (keyEntry s m k).invert
                 keyState t m k = { keyState s m k with cond := on, run := 0, held := on }))))))

/-- R108, R122, R124, R125, R127, R141: SCAN on a BOUND line, no repeat. Of the panel of its map: the keys in ascending order,
each conditioned and taken by its mode, then the key events of the edges they gave, in that order, then the knob, then the
LAMPS answer. Of another panel: the line is lost as at a timeout, and the same SCAN is then taken from ABSENT. (PANEL_CHANGE
is reported before the talks of the lost line end, log 7; it carries the new id, and the line's own is cleared, log 22; hold count
and recorded toggle of its keys are cleared, log 59.) -/
def Obligations.BoundLinesScanned : Prop :=
  ∀ (i : LineId) (m : MapId) (bytes : List Byte) (sc : Scan) (s : State), isMember s.trunk = true →
    readScan bytes = some sc → s.panel.lines[i].state = .bound → s.panel.lines[i].map = some m →
    ¬(s.panel.lines[i].scanNo = some sc.scanNo ∧ s.panel.lines[i].panelId = some sc.panelId) →
    (s.panel.maps[m].panelId = sc.panelId →
      let line : (PanelLine → PanelLine) → State → State := fun f u =>
        { u with panel := { u.panel with lines := u.panel.lines.set i (f u.panel.lines[i]) } }
      let scanned := (List.finRange 32).foldl (fun a k => scanKey m sc.pressed k a)
        (line (fun x => { x with scanNo := some sc.scanNo, timeout := 0 }) s, [])
      let told := scanned.2.reverse.foldl (fun (u : State) (edge : KeyId × Bool) =>
        let wanted : Bool := match (keyEntry u m edge.1).report with
          | .none => false
          | .press => edge.2
          | .release => !edge.2
          | .both => true
        if wanted = true then report .keyEvent ([b8 i.val, sc.panelId, b8 m.val, b8 edge.1.val, if edge.2 then 0 else 1,
          sc.scanNo] ++ epochBytes u.sp.epoch) u else u) scanned.1
      let listen := s.panel.maps[m].listen
      let knob : State := { told with mix := { told.mix with
        recs := told.mix.recs.set listen { told.mix.recs[listen] with listen := sc.knob.toNat * 32 } } }
      exec (.scan i bytes) s = .next (line (fun x => { x with lamps := some (composeLamps knob i) }) knob)) ∧
    (s.panel.maps[m].panelId ≠ sc.panelId → ∃ u, LineLost i sc.panelId s u ∧ exec (.scan i bytes) s = exec (.scan i bytes) u)

/-- R142: for each key of a bound map, the LAMPS entry carries the key's colour and the pattern of the first line of the
table that holds: refused, route refused, called, active, heard, or off; the key's points and its active function are given
by its function. -/
def Obligations.KeyLampsComposed : Prop :=
  ∀ (i : LineId) (m : MapId) (k : KeyId) (s : State), s.panel.lines[i].state = .bound → s.panel.lines[i].map = some m →
    let e := keyEntry s m k
    let x := keyState s m k
    let colour := match e.colour with | .red => 0 | .green => 1 | .amber => 2
    let shows : Nat → Prop := fun pattern => byteAt (composeLamps s i) (1 + k.val) = b8 (colour * 16 + pattern)
    let held : OriginState → Prop := fun st =>
      ∃ (o : OriginId) (y : OriginEntry), s.talk.origins[o] = some y ∧ y.map = m ∧ y.key = k ∧ y.state = st
    let points : PointId → Prop := fun p =>
      match e.fn with
      | .talkPoint q => p = q
      | .call q _ => p = q
      | .talkTally _ _ => p ∈ x.resolved
      | _ => False
    let refused := held .denied ∨ held .displaced ∨ held .noAnswer ∨ x.refusedLocal = true ∨ x.refusedPoints ≠ [] ∨
      x.window ≠ none
    let routeRefused := ∃ n, x.route = .refused n
    let called := ∃ c ∈ s.tally.calls, s.panel.maps[m].point = some c.target ∧ points c.caller
    let active := match e.fn with
      | .none => False
      | .talkPoint _ => held .requested ∨ held .granted
      | .talkConf _ => held .requested ∨ held .granted
      | .talkTally _ _ => held .requested ∨ held .granted
      | .listenConf c => c ∈ s.mix.recs[s.panel.maps[m].listen].subs
      | .call _ _ => x.active = true
      | .route _ _ _ => ∃ n, x.route = .confirm n
    let heard := ∃ c ∈ s.mix.contrib[s.panel.maps[m].listen], ∃ p, c.point = some p ∧ points p
    (refused ∨ routeRefused → shows 4) ∧
    (¬(refused ∨ routeRefused) → called → shows 3) ∧
    (¬(refused ∨ routeRefused) → ¬called → active → shows 2) ∧
    (¬(refused ∨ routeRefused) → ¬called → ¬active → heard → shows 1) ∧
    (¬(refused ∨ routeRefused) → ¬called → ¬active → ¬heard → shows 0)

/-- R126, R127: PANEL_TIMEOUT. A line that is not ABSENT and has had no valid SCAN for 1920 frames is lost: it goes to ABSENT
and is reported; from BOUND, every talk of its map then ends, its keys are released and every key of the map returns to its
reset state (hold count and recorded toggle: log 59). Another line is left as it is (log 3). (The report comes before the
talks end, log 7; it carries the panel id the line had, which is cleared, log 22.) -/
def Obligations.PanelTimedOut : Prop :=
  ∀ (i : LineId) (s : State), isMember s.trunk = true →
    let ln := s.panel.lines[i]
    let due := ln.state ≠ .absent ∧ 1920 ≤ ln.timeout
    (¬due → exec (.panelTimeout i) s = .next s) ∧
    (due → ∃ t, exec (.panelTimeout i) s = .next t ∧ LineLost i (ln.panelId.getD 0) s t)

/-! ### Management requests -/

/-- R42, R47, R189, R191: a request that repeats its requester's last served one is answered with the saved reply and not
served, so that no repeat of a STATUS of page 1 clears link integrity (log 60); and what a reply does: it is written to the requester's entry, with the count at 0, and queued as a REPLY cell
with the request's tag. (What the service creates comes before the REPLY, log 7.) -/
def Obligations.RequestsAnswered : Prop :=
  ∀ (s : State) (src tag : Byte), Reaches s src →
    (∀ (r : Request) (e : ReqEntry), s.mgmt.requesters[(⟨src.toNat % 64, by omega⟩ : Fin 64)] = some e →
      e.kind = requestCode r → e.tag = tag →
      request src tag r s = .next (sendCell .reply src (some tag) (requestCode r :: e.reply) s)) ∧
    (∀ (r : Request), Fresh s src tag (requestCode r) → (∀ p, r = .status p → p ≠ 1) →
      request src tag r s =
        .next (replied src tag (requestCode r) (serve src r s).2.code (serve src r s).2.fields (serve src r s).1)) ∧
    (∀ (kind : Byte) (code : Code) (fields : List Byte), 0 < s.cells.free →
      (inserts s.trunk .cw = true ∨ inserts s.trunk .ccw = true) →
      let reply := codeByte code :: fields
      replied src tag kind code fields s = { s with
        mgmt := { s.mgmt with
          requesters := s.mgmt.requesters.set (⟨src.toNat % 64, by omega⟩ : Fin 64)
            (some { kind := kind, tag := tag, reply := reply, count := 0 }) }
        cells := { s.cells with
          free := s.cells.free - 1
          queues := { s.cells.queues with reply := s.cells.queues.reply ++
            [{ cell := { kind := 9, dest := src, src := s.trunk.addr, tag := tag, len := b8 (fields.length + 2)
                         payload := kind :: reply }
               cw := inserts s.trunk .cw, ccw := inserts s.trunk .ccw, sent := false }] } } })

/-- R101, R165, R189, R192, R194, R201, R207, R211, R212, R213: QUERY, STATUS, IDENTIFY and a request of unknown kind: what
each answers, with no other effect but the link integrity that a created reply of page 1 returns to CLEAN; and the bytes of
every page, table entry and view entry. (Absent fields log 14, page 7 log 31, yes-or-no fields log 50, unused bytes of terms
log 51. The fault states of the status record have no byte in a page: log 53; CALLS carries no number of entries, against R165, log 54.) -/
def Obligations.ReadRequests : Prop :=
  (∀ s : State, PagesShown s ∧ TablesShown s ∧ ViewsShown s) ∧
  ∀ (s : State) (src tag : Byte),
    (∀ kind : Byte, 14 ≤ kind.toNat → Fresh s src tag kind →
      exec (.unknownRequest src tag kind) s = .next (replied src tag kind .unknown [] s)) ∧
    (Fresh s src tag 11 → exec (.identify src tag) s = .next (replied src tag 11 .ok
      [0x05, 0x2A, 0x17, 0xE8, 1, s.trunk.addr, if s.trunk.headStrap = true then 1 else 0,
        roleCode (roleOf s.trunk)] s)) ∧
    (∀ page : Byte, Fresh s src tag 10 →
      (8 ≤ page.toNat → exec (.status src tag page) s = .next (replied src tag 10 .range [] s)) ∧
      (page.toNat ≤ 7 → page ≠ 1 →
        exec (.status src tag page) s = .next (replied src tag 10 .ok (page :: pageBytes s page) s)) ∧
      (page = 1 → ∃ t, exec (.status src tag page) s = .next t ∧
        (let u := replied src tag 10 .ok (1 :: pageBytes s 1) s
         (s.cells.free = 0 → t = u) ∧
         (0 < s.cells.free → t = { u with trunk := { s.trunk with
           east := { s.trunk.east with integrity := .clean }
           west := { s.trunk.west with integrity := .clean } } })))) ∧
    (∀ (table : Byte) (start count : Half), Fresh s src tag 0 →
      let judged : Nat → Answer → Prop := fun size good =>
        (size ≤ start.toNat → exec (.query src tag table start count) s = .next (replied src tag 0 .range [] s)) ∧
        (start.toNat < size → count = 0 ∨ size < count.toNat →
          exec (.query src tag table start count) s = .next (replied src tag 0 .invalid [] s)) ∧
        (start.toNat < size → count ≠ 0 → count.toNat ≤ size →
          exec (.query src tag table start count) s = .next (replied src tag 0 .ok good.fields s))
      (17 ≤ table.toNat → exec (.query src tag table start count) s = .next (replied src tag 0 .unknown [] s)) ∧
      (∀ t, table = tableCode t →
        let n := min count.toNat (35 / entrySize t)
        judged (tableSize t) { code := .ok, fields := halfBytes start ++ [b8 n] ++
          (List.range n).flatMap fun k => tableBytes s t ((start.toNat + k) % tableSize t) }) ∧
      (∀ v, viewOf table = some v →
        let pointer : List Byte := if v = .origins then [b8 s.talk.pointer.val] else []
        let n := min count.toNat ((35 - pointer.length) / viewEntrySize v)
        judged (viewSize v) { code := .ok, fields := halfBytes start ++ [b8 n] ++ pointer ++
          (List.range n).flatMap fun k => viewBytes s v ((start.toNat + k) % viewSize v) }))

/-- R65, R80, R81, R151, R155, R168, R171, R195: ROUTE_WRITE, CONF_WRITE, CAMERA_WRITE, LINE_WRITE, SUBST_WRITE and
GPI_WRITE: what an accepted entry stores, with nothing else changed but the reply, and the fields for which an entry is refused
INVALID. (The yes-or-no fields of LINE and GPI are 0 no, 1 yes: log 50.) -/
def Obligations.EntriesWritten : Prop :=
  ∀ (s : State) (src tag : Byte) (i : Half), Fresh s src tag 1 →
    let ok : State → Host.Outcome State Fault Refusal := fun u => .next (replied src tag 1 .ok [] u)
    let no : Host.Outcome State Fault Refusal := .next (replied src tag 1 .invalid [] s)
    (Writable .route src s → ∀ (d : DestId) (slot : Option SlotId) (e : List Byte), i.toNat = d.val →
      e.length = 11 → byteAt e 0 = (match slot with | none => 0xFF | some t => b8 t.val) →
      (d.val < 32 → slot = none → exec (.routeWrite src tag i e) s = ok s) ∧
      (32 ≤ d.val →
        (∀ t, slot = some t → ∀ j : DestId, 32 ≤ j.val → j ≠ d → s.router.routes[j].slot ≠ some t) →
        exec (.routeWrite src tag i e) s = ok { s with router := { s.router with
          routes := s.router.routes.set d { s.router.routes[d] with slot := slot } } }) ∧
      (32 ≤ d.val → (∃ t, slot = some t ∧ ∃ j : DestId, 32 ≤ j.val ∧ j ≠ d ∧ s.router.routes[j].slot = some t) →
        exec (.routeWrite src tag i e) s = .next (replied src tag 1 .duplicateSlot [] s))) ∧
    (Writable .route src s → ∀ (d : DestId) (e : List Byte), i.toNat = d.val → 11 ≤ e.length → byteAt e 0 ≠ 0xFF →
      d.val < 32 ∨ 128 ≤ (byteAt e 0).toNat → exec (.routeWrite src tag i e) s = no) ∧
    (Writable .conf src s → ∀ (c : ConfId) (home : Bool), i.toNat = c.val →
      exec (.confWrite src tag i [if home then 1 else 0]) s = ok { s with talk := { s.talk with
        confs := s.talk.confs.set c { s.talk.confs[c] with home := home } } }) ∧
    (Writable .conf src s → i.toNat < 64 → ∀ x : Byte, 2 ≤ x.toNat → exec (.confWrite src tag i [x]) s = no) ∧
    (Writable .camera src s → ∀ (n : Fin 256) (p : Option PointId), i.toNat = n.val →
      exec (.cameraWrite src tag i (pointBytes p)) s = ok { s with tally := { s.tally with
        camera := s.tally.camera.set n p } }) ∧
    (Writable .camera src s → i.toNat < 256 → ∀ p : Half, 1024 ≤ p.toNat → p ≠ 0xFFFF →
      exec (.cameraWrite src tag i (halfBytes p)) s = no) ∧
    (Writable .line src s → ∀ (w : WireId) (spare latch auto : Bool) (a b : Byte), i.toNat = w.val →
      let role : LineRole := if spare then .spare else .normal
      let bit : Bool → Byte := fun x => if x then 1 else 0
      ((∀ y ∈ s.lamp.links, y.2 ≠ w) ∨ role = s.lamp.lines[w].role →
        exec (.lineWrite src tag i [bit spare, bit latch, bit auto, a, b]) s = ok { s with lamp := { s.lamp with
          lines := s.lamp.lines.set w { s.lamp.lines[w] with
            role := role, mode := if latch then .latch else .retry, autoSpare := auto } } }) ∧
      ((∃ y ∈ s.lamp.links, y.2 = w) → role ≠ s.lamp.lines[w].role →
        exec (.lineWrite src tag i [bit spare, bit latch, bit auto, a, b]) s = no)) ∧
    (Writable .line src s → i.toNat < 48 → ∀ e : List Byte, 5 ≤ e.length →
      2 ≤ (byteAt e 0).toNat ∨ 2 ≤ (byteAt e 1).toNat ∨ 2 ≤ (byteAt e 2).toNat → exec (.lineWrite src tag i e) s = no) ∧
    (Writable .subst src s → ∀ j : LampId, i.toNat = j.val →
      let linked := ∃ y ∈ s.lamp.links, y.1 = j
      exec (.substWrite src tag i [0xFF]) s = ok { s with lamp := { s.lamp with
        links := s.lamp.links.filter fun y => y.1 != j } } ∧
      (∀ w : WireId, s.lamp.lines[w].role = .spare → (∀ y ∈ s.lamp.links, y.2 = w → y.1 = j) →
        (linked → exec (.substWrite src tag i [b8 w.val]) s = ok { s with lamp := { s.lamp with
          links := s.lamp.links.map fun y => if y.1 = j then (j, w) else y } }) ∧
        (¬linked → s.lamp.links.length < 8 → exec (.substWrite src tag i [b8 w.val]) s = ok { s with lamp := { s.lamp with
          links := s.lamp.links ++ [(j, w)] } })) ∧
      (∀ w : WireId, s.lamp.lines[w].role = .normal ∨ (∃ y ∈ s.lamp.links, y.2 = w ∧ y.1 ≠ j) ∨
          (¬linked ∧ 8 ≤ s.lamp.links.length) →
        exec (.substWrite src tag i [b8 w.val]) s = no) ∧
      (∀ x : Byte, 48 ≤ x.toNat → x ≠ 0xFF → exec (.substWrite src tag i [x]) s = no)) ∧
    (Writable .gpi src s → ∀ (n : GpiId) (g : GpiEntry), i.toNat = n.val → g.debounce ≤ 15 →
      exec (.gpiWrite src tag i (gpiBytes g)) s = ok { s with tally := { s.tally with
        gpi := s.tally.gpi.set n g
        gpiState := s.tally.gpiState.set n
          (if s.tally.gpi[n].enable ≠ g.enable then { cond := false, run := 0, mark := false }
           else if s.tally.gpi[n].latch = true ∧ g.latch = false then { s.tally.gpiState[n] with mark := false }
           else s.tally.gpiState[n]) } }) ∧
    (Writable .gpi src s → i.toNat < 16 → ∀ e : List Byte, 5 ≤ e.length →
      2 ≤ (byteAt e 0).toNat ∨ 2 ≤ (byteAt e 1).toNat ∨ 16 ≤ (byteAt e 2).toNat ∨ 2 ≤ (byteAt e 3).toNat →
      exec (.gpiWrite src tag i e) s = no)

/-- R53, R80, R105, R106, R127, R128, R129, R157, R159, R195: SCHED_WRITE, MIX_WRITE, KEYMAP_WRITE, KEY_WRITE and
TALLYMAP_WRITE: what an accepted entry stores, the clamps, what it does at once to lists, lines, keys and lamps, and the fields
for which an entry is refused INVALID. An active key of a bound map is
first deactivated by its old function (KeyFunctionsAct says what that does). (A line lost to a KEYMAP write: its PANEL_CHANGE
and panel id, logs 7 and 22. The bytes that a term's drive does not use: log 51. A LISTENER that becomes an IFB output while
full rises keeps g at the old full: log 57. Hold count and recorded toggle of a key that is cleared: log 59.) -/
def Obligations.RunningEntriesWritten : Prop :=
  ∀ (s : State) (src tag : Byte) (i : Half), Fresh s src tag 1 →
    let ok : State → Host.Outcome State Fault Refusal := fun u => .next (replied src tag 1 .ok [] u)
    let no : Host.Outcome State Fault Refusal := .next (replied src tag 1 .invalid [] s)
    let noPoint : Half → Prop := fun p => 1024 ≤ p.toNat ∧ p ≠ 0xFFFF
    let noSource : Half → Prop := fun x => ∀ y : Source, x ≠ halfAt (sourceBytes y) 0
    (Writable .sched src s →
      (∀ n, 1 ≤ n → n ≤ 32 → i = 0 → exec (.schedWrite src tag i [b8 n]) s = ok { s with cells := { s.cells with
        schedLen := n, cwIndex := 0, ccwIndex := 0 } }) ∧
      (∀ (n : Fin 32) (k : CellClass), i.toNat = n.val + 1 →
        exec (.schedWrite src tag i [classCode k]) s = ok { s with cells := { s.cells with
          sched := s.cells.sched.set n k, cwIndex := 0, ccwIndex := 0 } }) ∧
      (∀ x : Byte, (i = 0 ∧ (x = 0 ∨ 33 ≤ x.toNat)) ∨ (1 ≤ i.toNat ∧ i.toNat ≤ 32 ∧ 4 ≤ x.toNat) →
        exec (.schedWrite src tag i [x]) s = no)) ∧
    (Writable .mix src s → ∀ (m : MixId) (ifb : Bool) (point : Option PointId) (own : Option SlotId) (subs : List ConfId)
        (pad : List Byte) (talk listen full dim step : Half) (prog : Option Source) (threshold : Fin 5) (last : List Byte),
      i.toNat = m.val → subs.length ≤ 4 → subs.Nodup → pad.length + subs.length = 4 → last.length = 3 →
      let e := [if ifb then 1 else 0] ++ pointBytes point ++ [optByte own, b8 subs.length] ++
        subs.map (fun c => b8 c.val) ++ pad ++ halfBytes talk ++ halfBytes listen ++ sourceOptBytes prog ++
        halfBytes full ++ halfBytes dim ++ halfBytes step ++ [b8 threshold.val] ++ last
      let old := s.mix.recs[m]
      let full' := min full.toNat 4096
      let dim' := min (min dim.toNat 4096) full'
      ∃ u, exec (.mixWrite src tag i e) s = ok u ∧ Only [.mix, .talk] s u ∧
        u.mix.contrib = s.mix.contrib ∧ (∀ j : MixId, j ≠ m → u.mix.recs[j] = s.mix.recs[j]) ∧
        u.mix.recs[m] = { old with
          ifb := ifb, point := point, own := own, subs := subs, talkGain := min talk.toNat 8191
          listen := min listen.toNat 8191, prog := prog, full := full', dim := dim'
          step := max 1 (min step.toNat 4096), threshold := threshold.val
          g := if ifb then max dim' (min full' old.g) else full' } ∧
        u.talk.confs = s.talk.confs ∧ u.talk.origins = s.talk.origins ∧
        (∀ j : MixId, u.talk.direct[j] =
          if point ≠ old.point ∧ (j = m ∨ (m < j ∧ point ≠ none ∧ s.mix.recs[j].point = point)) then []
          else s.talk.direct[j])) ∧
    (Writable .mix src s → i.toNat < 24 → ∀ e : List Byte, 25 ≤ e.length →
      let n := (byteAt e 4).toNat
      2 ≤ (byteAt e 0).toNat ∨ noPoint (halfAt e 1) ∨ (128 ≤ (byteAt e 3).toNat ∧ byteAt e 3 ≠ 0xFF) ∨ 5 ≤ n ∨
        (∃ k < n, 64 ≤ (byteAt e (5 + k)).toNat) ∨ (∃ k < n, ∃ j < k, byteAt e (5 + j) = byteAt e (5 + k)) ∨
        (halfAt e 13 ≠ 0xFFFF ∧ noSource (halfAt e 13)) ∨ 5 ≤ (byteAt e 21).toNat →
      exec (.mixWrite src tag i e) s = no) ∧
    (Writable .keymap src s → ∀ (m : MapId) (k : KeyMap), i.toNat = m.val →
      let old := s.panel.maps[m]
      let bound : MapId → LineId → Prop := fun n j => s.panel.lines[j].state = .bound ∧ s.panel.lines[j].map = some n
      let lost : MapId → LineId → Prop := fun n j => bound n j ∧ (∀ q < j, ¬bound n q) ∧
        ((n = m ∧ (old.panelId ≠ k.panelId ∨ old.listen ≠ k.listen)) ∨
         (m < n ∧ old.panelId ≠ k.panelId ∧ k.panelId ≠ 0 ∧ s.panel.maps[n].panelId = k.panelId))
      let stored : State → State := fun u => { u with panel := { u.panel with maps := u.panel.maps.set m k } }
      let served := exec (.keymapWrite src tag i (keyMapBytes k)) s
      ((∀ n j, ¬lost n j) → served = ok (stored s)) ∧
      (∀ n j, lost n j → (∀ n' j', lost n' j' → n' = n) →
        ∃ u, LineLost j (s.panel.lines[j].panelId.getD 0) s u ∧ served = ok (stored u)) ∧
      ∃ v, served = ok v ∧ Only [.panel, .talk, .mix, .cells, .mgmt] s v ∧ v.panel.maps = s.panel.maps.set m k ∧
        v.panel.entries = s.panel.entries ∧
        (∀ j : LineId,
          ((∃ n, lost n j) → v.panel.lines[j] = { s.panel.lines[j] with
            state := .absent, panelId := none, scanNo := none, map := none, timeout := 0 }) ∧
          ((∀ n, ¬lost n j) → v.panel.lines[j] = s.panel.lines[j])) ∧
        (∀ (o : OriginId) e, v.talk.origins[o] = some e ↔ s.talk.origins[o] = some e ∧ ∀ j, ¬lost e.map j)) ∧
    (Writable .keymap src s → i.toNat < 8 → ∀ e : List Byte, 6 ≤ e.length →
      24 ≤ (byteAt e 1).toNat ∨ 128 ≤ (byteAt e 2).toNat ∨ noPoint (halfAt e 3) ∨ 4 ≤ (byteAt e 5).toNat →
      exec (.keymapWrite src tag i e) s = no) ∧
    (Writable .key src s → ∀ (m : MapId) (k : KeyId) (e : KeyEntry), i.toNat = m.val * 32 + k.val →
      readKeyEntry (keyEntryBytes e) = some e →
      let bound := ∃ j : LineId, s.panel.lines[j].state = .bound ∧ s.panel.lines[j].map = some m
      (¬bound → exec (.keyWrite src tag i (keyEntryBytes e)) s = ok { s with panel := { s.panel with
        entries := s.panel.entries.set (keyIx m k) e } }) ∧
      (bound → ∃ u, exec (.keyWrite src tag i (keyEntryBytes e)) s = ok u ∧
        Only [.panel, .talk, .mix, .cells, .mgmt] s u ∧ u.panel.entries = s.panel.entries.set (keyIx m k) e ∧
        u.panel.lines = s.panel.lines ∧ u.panel.maps = s.panel.maps ∧
        (∀ n, n ≠ keyIx m k → u.panel.keys[n] = s.panel.keys[n]) ∧
        (let x := keyState s m k
         let cleared : KeyState :=
           { cond := x.cond, run := x.run, held := x.cond, active := false, auto := .idle, hold := 0, refusedLocal := false
             resolved := [], refusedPoints := [], toggled := none, window := none, route := .idle }
         let ended : State := setActive m k false s
         keyState u m k = cleared ∧ (x.active = false → ended = s) ∧
         u = { ended with panel := { ended.panel with
           entries := s.panel.entries.set (keyIx m k) e, keys := ended.panel.keys.set (keyIx m k) cleared } }))) ∧
    (Writable .key src s → i.toNat < 256 → ∀ e : List Byte, 10 ≤ e.length →
      let f := byteAt e 0
      let id := (halfAt e 1).toNat
      7 ≤ f.toNat ∨ ((f = 1 ∨ f = 5) ∧ 1024 ≤ id) ∨ ((f = 2 ∨ f = 4) ∧ 64 ≤ id) ∨
        (f = 3 ∧ (16 ≤ (byteAt e 1).toNat ∨ byteAt e 2 = 0 ∨ 5 ≤ (byteAt e 2).toNat)) ∨ (f = 5 ∧ byteAt e 3 = 0) ∨
        (f = 6 ∧ (byteAt e 1 = 0 ∨ 63 ≤ (byteAt e 1).toNat ∨ 64 ≤ (byteAt e 2).toNat ∨ noSource (halfAt e 3))) ∨
        3 ≤ (byteAt e 5).toNat ∨ 2 ≤ (byteAt e 6).toNat ∨ 16 ≤ (byteAt e 7).toNat ∨ 4 ≤ (byteAt e 8).toNat ∨
        3 ≤ (byteAt e 9).toNat →
      exec (.keyWrite src tag i e) s = no) ∧
    (Writable .tallymap src s → ∀ (j : LampId) (call : Option PointId)
        (terms : List (BusId × Byte × Bool × Fin 3 × Byte × Byte)) (pad : List Byte), i.toNat = j.val →
      terms.length ≤ 4 → pad.length + 5 * terms.length = 20 →
      let e := [b8 terms.length] ++ pointBytes call ++ (terms.flatMap fun (bus, id, air, kind, a, b) =>
        [b8 bus.val, id, b8 kind.val + (if air = true then 0x80 else 0), a, b]) ++ pad
      let r : TallyRec :=
        { callPoint := call
          terms := terms.map fun (bus, id, air, kind, a, b) =>
            { bus := bus, source := id, air := air
              drive := match kind with
                | 0 => .steady
                | 1 => .dim (max 1 (min a.toNat 15))
                | 2 => .flash (min a.toNat 32) (min b.toNat 32) } }
      ∃ u, exec (.tallymapWrite src tag i e) s = ok u ∧ Only [.tally, .lamp] s u ∧
        u.tally.map = s.tally.map.set j r ∧ u.tally.drives[j] = lampDrive s.tally r ∧
        (∀ k : LampId, k ≠ j → u.tally.drives[k] = s.tally.drives[k] ∧ u.lamp.gens[k] = s.lamp.gens[k]) ∧
        (lampDrive s.tally r = s.tally.drives[j] → u.lamp = s.lamp) ∧
        (lampDrive s.tally r ≠ s.tally.drives[j] → u.lamp.gens[j].drive = lampDrive s.tally r)) ∧
    (Writable .tallymap src s → i.toNat < 40 → ∀ e : List Byte, 23 ≤ e.length →
      5 ≤ (byteAt e 0).toNat ∨ noPoint (halfAt e 1) ∨
        (∃ k < (byteAt e 0).toNat, 16 ≤ (byteAt e (3 + 5 * k)).toNat ∨ (byteAt e (5 + 5 * k)).toNat % 4 = 3) →
      exec (.tallymapWrite src tag i e) s = no)

/-- R99, R132, R177, R193, R195, R196, R200: what stands against a SET of any table, in the order of the tests: the show
lock, a load of the table open for another requester, an entry too short for its layout (log 29) or an index outside the
table, whatever its fields (log 48); nothing but the reply changes. Where neither lock nor load
stands against it the entry is judged and stored by its table's rules, and the reply carries the code. A code that is a view's is INVALID, one that is nothing's UNKNOWN. The six NODE writes:
a value within the parameter's values is stored and no other parameter changes; another value is refused INVALID. A new lease
clamps refresh countdowns and leases at once. -/
def Obligations.WritesJudged : Prop :=
  (∀ (s : State) (src tag : Byte) (t : Table) (i : Half) (e : List Byte), Fresh s src tag 1 →
     let refused : Code → Prop := fun c => setEntry t src tag i e s = .next (replied src tag 1 c [] s)
     let locked := s.mgmt.showLock = true ∧ t ≠ .sched
     let busy := ∃ r, s.mgmt.load = .opened r ∧ r.table = t ∧ r.requester ≠ src
     (locked → refused .locked) ∧
     (¬locked → busy → refused .busy) ∧
     (¬locked → ¬busy → setEntry t src tag i e s =
       .next (replied src tag 1 (writeEntry t i.toNat e s).2 [] (writeEntry t i.toNat e s).1)) ∧
     (¬locked → ¬busy → e.length < entrySize t → refused .invalid) ∧
     (¬locked → ¬busy → entrySize t ≤ e.length → tableSize t ≤ i.toNat → refused .range)) ∧
  (∀ (s : State) (src tag : Byte) (i : Half) (e : List Byte),
     let set : Table → Host.Outcome State Fault Refusal := fun t => setEntry t src tag i e s
     exec (.routeWrite src tag i e) s = set .route ∧ exec (.mixWrite src tag i e) s = set .mix ∧
     exec (.confWrite src tag i e) s = set .conf ∧ exec (.keymapWrite src tag i e) s = set .keymap ∧
     exec (.keyWrite src tag i e) s = set .key ∧ exec (.cameraWrite src tag i e) s = set .camera ∧
     exec (.tallymapWrite src tag i e) s = set .tallymap ∧ exec (.lineWrite src tag i e) s = set .line ∧
     exec (.substWrite src tag i e) s = set .subst ∧ exec (.gpiWrite src tag i e) s = set .gpi ∧
     exec (.schedWrite src tag i e) s = set .sched) ∧
  (∀ (s : State) (src tag table : Byte) (i : Half) (e : List Byte), Fresh s src tag 1 → 12 ≤ table.toNat →
    request src tag (.set table i e) s =
      .next (replied src tag 1 (if table.toNat ≤ 16 then .invalid else .unknown) [] s)) ∧
  (∀ (s : State) (src tag : Byte) (v : Half), Fresh s src tag 1 → Writable .node src s →
     let n := v.toNat
     let p := s.mgmt.params
     let set : Params → Host.Outcome State Fault Refusal := fun q =>
       .next (replied src tag 1 .ok [] { s with mgmt := { s.mgmt with params := q } })
     let no : Host.Outcome State Fault Refusal := .next (replied src tag 1 .invalid [] s)
     exec (.controllerAddressWrite src tag v) s = (if n ≤ 63 then set { p with ctrl := n } else no) ∧
     exec (.freeRunIntervalWrite src tag v) s = (if 400 ≤ n ∧ n ≤ 4800 then set { p with interval := n } else no) ∧
     exec (.switchOffsetWrite src tag v) s = (if n ≤ 4799 then set { p with offset := n } else no) ∧
     exec (.flashCycleWrite src tag v) s =
       (if n = 2 ∨ n = 4 ∨ n = 8 ∨ n = 16 ∨ n = 32 then set { p with flash := n } else no) ∧
     exec (.holdThresholdWrite src tag v) s = (if 1 ≤ n ∧ n ≤ 255 then set { p with hold := n } else no) ∧
     (¬(8 ≤ n ∧ n ≤ 255) → exec (.leaseWrite src tag v) s = no) ∧
     (8 ≤ n → n ≤ 255 → n = p.lease → exec (.leaseWrite src tag v) s = .next (replied src tag 1 .ok [] s)) ∧
     (8 ≤ n → n ≤ 255 → n ≠ p.lease → ∃ u, exec (.leaseWrite src tag v) s = .next (replied src tag 1 .ok [] u) ∧
       Only [.talk, .mgmt] s u ∧ u.mgmt = { s.mgmt with params := { p with lease := n } } ∧
       (∀ o : OriginId, u.talk.origins[o] = s.talk.origins[o].map fun e =>
         { e with countdown := min e.countdown (max 1 (n / 4)) }) ∧
       (∀ l, listOf u.talk l = (listOf s.talk l).map fun x => { x with lease := min x.lease n }) ∧
       (∀ c : ConfId, u.talk.confs[c].home = s.talk.confs[c].home)))

/-- R196 to R199, R211: LOAD_OPEN and LOAD_DATA by the rows of their tests, a declared load of one entry more that its segment
completes, and LOAD_ABANDONED. (The fields stand in every reply to a LOAD_DATA while a load is open, BUSY included, and in
none from memory: log 27; without a first refusal its code and index read 0xFF and 0xFFFF: log 14; LOAD_ABANDONED acts on a count that stands at its end: log 4.) -/
def Obligations.LoadsServed : Prop :=
  ∀ (s : State) (src tag : Byte),
    let load : Load → State := fun l => { s with mgmt := { s.mgmt with load := l } }
    (∀ (t : Table) (start count : Half), Fresh s src tag 2 →
      let opened := exec (.loadOpen src tag (tableCode t) start count) s
      let locked := s.mgmt.showLock = true ∧ t ≠ .sched
      (locked → opened = .next (replied src tag 2 .locked [] s)) ∧
      (¬locked → (∃ r, s.mgmt.load = .opened r) → opened = .next (replied src tag 2 .busy [] s)) ∧
      (¬locked → (∀ r, s.mgmt.load ≠ .opened r) →
        (tableSize t ≤ start.toNat ∨ tableSize t < start.toNat + count.toNat →
          opened = .next (replied src tag 2 .range [] s)) ∧
        (start.toNat < tableSize t → start.toNat + count.toNat ≤ tableSize t →
          opened = .next (replied src tag 2 .ok [] (load (.opened
            { table := t, requester := src, nextIndex := start.toNat
              declared := if count = 0 then none else some count.toNat, judged := 0, refused := 0, first := none
              nextSeg := 0, lastSeg := none, part := [], abandon := 0 })))))) ∧
    (∀ (table : Byte) (start count : Half), Fresh s src tag 2 → 12 ≤ table.toNat →
      exec (.loadOpen src tag table start count) s =
        .next (replied src tag 2 (if table.toNat ≤ 16 then .invalid else .unknown) [] s)) ∧
    (∀ (seg : Byte) (data : List Byte), Fresh s src tag 3 →
      let served := exec (.loadData src tag seg data) s
      (s.mgmt.load = .closed (some (src, seg)) → served = .next (replied src tag 3 .ok [] s)) ∧
      (∀ m, s.mgmt.load = .closed m → m ≠ some (src, seg) → served = .next (replied src tag 3 .sequence [] s)) ∧
      (∀ r, s.mgmt.load = .opened r →
        let fields : LoadRec → Byte → List Byte := fun x closed =>
          [seg] ++ b16 x.judged ++ b16 x.refused ++ [closed] ++
            (match x.first with | none => [0xFF, 0xFF, 0xFF] | some (c, k) => codeByte c :: b16 k)
        let locked := s.mgmt.showLock = true ∧ r.table ≠ .sched
        (r.requester ≠ src → served = .next (replied src tag 3 .busy (fields r 0) s)) ∧
        (r.requester = src → locked → served = .next (replied src tag 3 .locked (fields r 0) s)) ∧
        (r.requester = src → ¬locked → seg ≠ r.nextSeg → r.lastSeg = some seg →
          served = .next (replied src tag 3 .ok (fields r 0) (load (.opened { r with abandon := 0 })))) ∧
        (r.requester = src → ¬locked → seg ≠ r.nextSeg → r.lastSeg ≠ some seg →
          served = .next (replied src tag 3 .sequence (fields r 0) s)) ∧
        (r.requester = src → ¬locked → seg = r.nextSeg → r.part.length + data.length = entrySize r.table →
          r.declared = some (r.judged + 1) →
          let w := writeEntry r.table r.nextIndex (r.part ++ data) s
          let after : LoadRec :=
            if w.2 = .ok then { r with judged := r.judged + 1 }
            else { r with judged := r.judged + 1, refused := r.refused + 1,
                          first := some (r.first.getD (w.2, r.nextIndex)) }
          served = .next (replied src tag 3 ((after.first.map (·.1)).getD .ok) (fields after 1)
            (w.1.modMgmt fun m => { m with load := .closed (some (src, seg)) }))) ∧
        (r.requester = src → ¬locked → seg = r.nextSeg → r.part.length + data.length < entrySize r.table →
          (r.declared ≠ none ∨ 38 ≤ data.length) →
          served = .next (replied src tag 3 ((r.first.map (·.1)).getD .ok) (fields r 0) (load (.opened
            { r with abandon := 0, lastSeg := some seg, nextSeg := r.nextSeg + 1, part := r.part ++ data })))))) ∧
    (isMember s.trunk = true →
      ((∀ r, s.mgmt.load = .opened r → r.abandon < 64) → exec .loadAbandoned s = .next s) ∧
      (∀ r, s.mgmt.load = .opened r → 64 ≤ r.abandon → exec .loadAbandoned s = .next
        (report .loadAbandoned ([tableCode r.table, r.requester] ++ b16 r.judged ++ b16 r.refused ++
          epochBytes s.sp.epoch) (load (.closed none)))))

/-- R197, R198: an accepted segment. Its bytes join those held and are cut into entries, each judged for the next index as a
SET would be; the rest is held. The load closes when the entries judged reach a declared count, the rest discarded; with an
open count, at a segment of fewer than 38 bytes, a rest counting as one entry refused INVALID, or at an entry behind the
table's last, refused RANGE. The reply carries the record as it then stands, with its first refusal as the code.
(Such a rest, and such an entry, raise the refused count and not the judged count, log 30; without a first
refusal the reply's code and index read 0xFF and 0xFFFF, log 14.) -/
def Obligations.SegmentsFed : Prop :=
  ∀ (s : State) (src tag seg : Byte) (data : List Byte) (r : LoadRec), Fresh s src tag 3 →
    s.mgmt.load = .opened r → r.requester = src → (s.mgmt.showLock = false ∨ r.table = .sched) → seg = r.nextSeg →
    let size := entrySize r.table
    let judge : State × LoadRec → List Byte → State × LoadRec := fun a e =>
      let w := writeEntry a.2.table a.2.nextIndex e a.1
      (w.1, { a.2 with
        judged := a.2.judged + 1, nextIndex := a.2.nextIndex + 1
        refused := if w.2 = .ok then a.2.refused else a.2.refused + 1
        first := if w.2 = .ok then a.2.first else a.2.first.or (some (w.2, a.2.nextIndex)) })
    let refuse : Code → LoadRec → LoadRec := fun c x =>
      { x with refused := x.refused + 1, first := x.first.or (some (c, x.nextIndex)) }
    let answered : Byte → Load → State × LoadRec → Prop := fun closed load a =>
      exec (.loadData src tag seg data) s = .next (replied src tag 3 ((a.2.first.map (·.1)).getD .ok)
        ([seg] ++ b16 a.2.judged ++ b16 a.2.refused ++ [closed] ++
          (match a.2.first with | none => [0xFF, 0xFF, 0xFF] | some (c, k) => codeByte c :: b16 k))
        { a.1 with mgmt := { a.1.mgmt with load := load } })
    ∀ (es : List (List Byte)) (rest : List Byte), (∀ e ∈ es, e.length = size) → r.part ++ data = es.flatten ++ rest →
      let base : LoadRec := { r with abandon := 0, lastSeg := some seg, nextSeg := r.nextSeg + 1, part := [] }
      let a := es.foldl judge (s, base)
      let holds := answered 0 (.opened { a.2 with part := rest }) a
      let closes : LoadRec → Prop := fun x => answered 1 (.closed (some (src, seg))) (a.1, x)
      (∀ d, r.declared = some d →
        (rest.length < size → r.judged + es.length < d → holds) ∧
        (es ≠ [] → r.judged + es.length = d → closes a.2)) ∧
      (r.declared = none → r.nextIndex + es.length ≤ tableSize r.table →
        (rest.length < size → 38 ≤ data.length → holds) ∧
        (rest = [] → data.length < 38 → closes a.2) ∧
        (rest ≠ [] → rest.length < size → data.length < 38 → closes (refuse .invalid a.2)) ∧
        (size ≤ rest.length → r.nextIndex + es.length = tableSize r.table → closes (refuse .range a.2)))

/-- R67, R68, R69, R72, R211: TAKE. Accepted whole: every pair sets its destination's pending part, the target held as given, or
as NEXT when late and reported; the reply counts the pendings replaced. Refused whole: no count or mode, no pair named;
or the first failing pair with its code, a refusal by protection recorded. (Pairs beyond the count are ignored, log 55; TAKE_LATE comes
before the REPLY, log 7.) -/
def Obligations.TakesServed : Prop :=
  ∀ (s : State) (src tag : Byte) (m : TakeMsg), Fresh s src tag 4 →
    let r := s.router
    let open_ : DestId → Prop := fun d => r.routes[d].prot = .free ∨ r.routes[d].prot = .protectedBy src
    let spells : Byte × Half → DestId × Source → Prop := fun p q =>
      p.1.toNat = q.1.val ∧ readSource p.2 = some q.2 ∧ open_ q.1
    let good : List (Byte × Half) → List (DestId × Source) → Prop := fun ps qs =>
      List.Forall₂ spells ps qs ∧ (qs.map (·.1)).Nodup
    (m.count = 0 ∨ 8 < m.count.toNat ∨ 2 ≤ m.mode.toNat ∨ m.pairs.length < m.count.toNat →
      exec (.take src tag m) s = .next (replied src tag 4 .invalid [0xFF] s)) ∧
    (1 ≤ m.count.toNat → m.count.toNat ≤ 8 → m.count.toNat ≤ m.pairs.length →
      (∀ (qs : List (DestId × Source)) (t : Target), good (m.pairs.take m.count.toNat) qs →
        readTarget m.mode m.epoch = some t →
        let late := match t, s.sp.epoch with
          | .epoch T, some c => (T.toNat + 256 - c.toNat) % 256 = 0 ∨ 128 ≤ (T.toNat + 256 - c.toNat) % 256
          | _, _ => False
        let replaced := (qs.filter fun q => r.routes[q.1].pending.isSome).length
        let held : Target → State := fun h =>
          { s with router := { r with
              routes := vof 64 fun d =>
                match qs.find? (fun q => q.1 == d) with
                | some q => { r.routes[d] with pending := some { source := q.2, target := h, requester := src } }
                | none => r.routes[d] } }
        (¬late → exec (.take src tag m) s = .next (replied src tag 4 (if replaced = 0 then .ok else .replaced)
          (0xFF :: b8 replaced :: targetBytes t) (held t))) ∧
        (late → exec (.take src tag m) s = .next (replied src tag 4 .late (0xFF :: b8 replaced :: targetBytes .next)
          (report .takeLate ([src] ++ targetBytes t ++ epochBytes s.sp.epoch) (held .next))))) ∧
      (∀ (pre : List (Byte × Half)) (p : Byte × Half) (post : List (Byte × Half)) (qs : List (DestId × Source)),
        m.pairs.take m.count.toNat = pre ++ p :: post → good pre qs → m.mode.toNat ≤ 1 →
        let no : Code → State → Prop := fun c u =>
          exec (.take src tag m) s = .next (replied src tag 4 c [b8 pre.length] u)
        (64 ≤ p.1.toNat → no .range s) ∧
        (p.1.toNat < 64 → readSource p.2 = none → no .invalid s) ∧
        (∀ (d : DestId) (x : Source), p.1.toNat = d.val → readSource p.2 = some x →
          let told : State := { s with router := { r with
            lastRefusal := some { dest := d, requester := src, epoch := s.sp.epoch } } }
          (d ∈ qs.map (·.1) → no .invalid s) ∧
          (d ∉ qs.map (·.1) →
            (∀ o, o ≠ src → r.routes[d].prot = .protectedBy o → no .protectedBy told) ∧
            (∀ o, r.routes[d].prot = .lockedBy o → no .protectedBy told) ∧
            (r.routes[d].prot = .airlocked → no .locked told)))))

/-- R72 to R75, R211: PROTECT, RELEASE and AIRLOCK by the destination's protection and the requester: what each makes of the
protection and the pending part, and the refusals, which are recorded. The router answers a code and the destination's
protection after the request in every outcome (R72); the reply of a refusal carries kind and code alone (R211: log 28); RANGE
is judged before the mode (log 48). -/
def Obligations.ProtectionServed : Prop :=
  ∀ (s : State) (src tag dest : Byte),
    let r := s.router
    let set : DestId → (RouteEntry → RouteEntry) → State := fun d f =>
      { s with router := { r with routes := r.routes.set d (f r.routes[d]) } }
    let told : DestId → State := fun d => { s with router := { r with
      lastRefusal := some { dest := d, requester := src, epoch := s.sp.epoch } } }
    let mine : DestId → Prop := fun d => r.routes[d].prot = .free ∨ r.routes[d].prot = .protectedBy src ∨
      r.routes[d].prot = .lockedBy src
    let another : DestId → Prop := fun d => ∃ o, o ≠ src ∧
      (r.routes[d].prot = .protectedBy o ∨ r.routes[d].prot = .lockedBy o)
    (Fresh s src tag 5 → ∀ mode : Byte,
      let served := exec (.protect src tag dest mode) s
      (64 ≤ dest.toNat → served = .next (replied src tag 5 .range [] s)) ∧
      (∀ d : DestId, dest.toNat = d.val →
        (2 ≤ mode.toNat → served = .next (replied src tag 5 .invalid [] s)) ∧
        (mode = 0 → mine d → served = .next (replied src tag 5 .ok [dest, 1] (set d fun e =>
          { e with prot := .protectedBy src, pending := e.pending.filter fun p => p.requester == src }))) ∧
        (mode = 1 → mine d → served = .next (replied src tag 5 .ok [dest, 2] (set d fun e =>
          { e with prot := .lockedBy src, pending := none }))) ∧
        (mode.toNat ≤ 1 → another d → served = .next (replied src tag 5 .protectedBy [] (told d))) ∧
        (mode.toNat ≤ 1 → r.routes[d].prot = .airlocked →
          served = .next (replied src tag 5 .locked [] (told d))))) ∧
    (Fresh s src tag 6 →
      let served := exec (.release src tag dest) s
      (64 ≤ dest.toNat → served = .next (replied src tag 6 .range [] s)) ∧
      (∀ d : DestId, dest.toNat = d.val →
        (mine d → served = .next (replied src tag 6 .ok [dest, 0] (set d fun e => { e with prot := .free }))) ∧
        (another d → served = .next (replied src tag 6 .protectedBy [] (told d))) ∧
        (r.routes[d].prot = .airlocked → served = .next (replied src tag 6 .locked [] (told d))))) ∧
    (Fresh s src tag 7 →
      let served := exec (.airlock src tag dest) s
      (64 ≤ dest.toNat → served = .next (replied src tag 7 .range [] s)) ∧
      (∀ d : DestId, dest.toNat = d.val →
        (mine d ∨ r.routes[d].prot = .airlocked → served = .next (replied src tag 7 .ok [dest, 3] (set d fun e =>
          { e with prot := .airlocked, pending := none }))) ∧
        (another d → served = .next (replied src tag 7 .protectedBy [] (told d))))) ∧
    -- the router's answer holds the protection after the request in every outcome
    (∀ (d : DestId) (mode : Byte), dest.toNat = d.val →
      let shown : State × ProtectAnswer → Prop := fun x => x.2.prot = some x.1.router.routes[d].prot
      shown (routerProtect src dest mode s) ∧ shown (routerRelease src dest s) ∧ shown (routerAirlock src dest s))

/-- R22, R56, R64, R119, R145, R165, R184, R202, R211: the eight CLEAR commands: each clears the item it names and nothing else,
and is answered OK. A CLEAR of several items, as a cell, clears each of them; of none, nothing; one that names the unknown item
is INVALID and clears nothing, as is a request too short for its kind, of which a TAKE names no pair. (A line that its fault
held off is driven on from the next frame: R184, by the mark of log 8; so is one that
carries nothing at the CLEAR and takes a lamp later in its frame, log 56.) -/
def Obligations.ItemsCleared : Prop :=
  let cleared : LampLine → LampLine := fun x =>
    { x with
      fault := .ok, count := 0, retryOff := false, tripped := false
      heldOff := x.fault == .latched || (x.retryOff && !x.tripped) || x.heldOff }
  (∀ (s : State) (src tag : Byte), Fresh s src tag 9 →
    let ok : State → Host.Outcome State Fault Refusal := fun u => .next (replied src tag 9 .ok [] u)
    (∀ k : Fin 16, ∃ u, exec (.clearEventFlag src tag k) s = ok u ∧ u = { s with mgmt := { s.mgmt with
      sticky := u.mgmt.sticky } } ∧ ∀ j < 16, u.mgmt.sticky.getLsbD j = (s.mgmt.sticky.getLsbD j && j != k.val)) ∧
    exec (.clearPortCounters src tag) s = ok { s with trunk := { s.trunk with
      east := { s.trunk.east with badHeaders := 0, badCells := 0 }
      west := { s.trunk.west with badHeaders := 0, badCells := 0 } } } ∧
    exec (.clearCellCounters src tag) s = ok { s with cells := { s.cells with
      loss := { urgent := 0, talk := 0, reply := 0, event := 0 }
      undeliverable := { urgent := 0, talk := 0, reply := 0, event := 0 }
      unknownKind := 0, malformed := 0, misaddressed := 0 } } ∧
    exec (.clearPanelCounters src tag) s = ok { s with panel := { s.panel with
      lines := vof 8 fun i => { s.panel.lines[i] with badScans := 0 } } } ∧
    exec (.clearTallyCounters src tag) s = ok { s with tally := { s.tally with rejects := 0 } } ∧
    exec (.clearCollisionFlags src tag) s = ok { s with router := { s.router with
      routes := vof 64 fun d => { s.router.routes[d] with collision := false } } } ∧
    exec (.clearClippedFlags src tag) s = ok { s with mix := { s.mix with
      recs := vof 24 fun m => { s.mix.recs[m] with clipped := false } } } ∧
    exec (.clearLampFaults src tag) s = ok { s with lamp := { s.lamp with lines := vof 48 fun w => cleared s.lamp.lines[w] } }) ∧
  -- several items, the unknown item, no item; short requests
  (∀ (s : State) (src tag : Byte) (items : BitVec 24), Fresh s src tag 9 →
    let asks : Cell := { kind := 8, dest := s.trunk.addr, src := src, tag := tag, len := 4
                         payload := 9 :: bitmap 3 items.toNat }
    let on : Nat → Bool := fun k => items.getLsbD k
    (on 23 = true → receiveCell asks s = replied src tag 9 .invalid [] s) ∧
    (on 23 = false → receiveCell asks s = replied src tag 9 .ok [] { s with
      mgmt := { s.mgmt with sticky := s.mgmt.sticky &&& ~~~ items.setWidth 16 }
      trunk := if on 16 then { s.trunk with
        east := { s.trunk.east with badHeaders := 0, badCells := 0 }
        west := { s.trunk.west with badHeaders := 0, badCells := 0 } } else s.trunk
      cells := if on 17 then { s.cells with
        loss := { urgent := 0, talk := 0, reply := 0, event := 0 }
        undeliverable := { urgent := 0, talk := 0, reply := 0, event := 0 }
        unknownKind := 0, malformed := 0, misaddressed := 0 } else s.cells
      panel := if on 18 then { s.panel with lines := vof 8 fun i => { s.panel.lines[i] with badScans := 0 } } else s.panel
      tally := if on 19 then { s.tally with rejects := 0 } else s.tally
      router := if on 20 then { s.router with
        routes := vof 64 fun d => { s.router.routes[d] with collision := false } } else s.router
      mix := if on 21 then { s.mix with recs := vof 24 fun m => { s.mix.recs[m] with clipped := false } } else s.mix
      lamp := if on 22 then { s.lamp with lines := vof 48 fun w => cleared s.lamp.lines[w] } else s.lamp })) ∧
  (∀ (s : State) (src tag : Byte) (p : List Byte), p.length ≤ 40 →
    (∀ k ∈ [(0, 6), (1, 4), (2, 6), (3, 2), (4, 4), (5, 3), (6, 2), (7, 2), (9, 4), (10, 2)],
      p.length < k.2 → p.head? = some (b8 k.1) → Fresh s src tag (b8 k.1) →
      receiveCell { kind := 8, dest := s.trunk.addr, src := src, tag := tag, len := b8 p.length, payload := p } s =
        replied src tag (b8 k.1) .invalid (if k.1 = 4 then [0xFF] else []) s))

/-- R58, R79, R103, R121, R146, R167, R188, R200, R204, R205, R206: SHOW_LOCK, RESET_PREPARE and RESET_EXECUTE. The reset is
carried out only after a prepare served in this switch interval or the last; it empties queues, tables and lists and keeps
the Trunk Interface, the Switch Point Unit, the tag, the counters, the sticky flags and the requester table. What the period
has started to deliver stands, as does the LAMPS message last sent (log 34); frame counts and their marks stand (log 8). The
sets held for the DIM lamps are emptied (log 58), the keys' hold counts and recorded toggles cleared (log 59). -/
def Obligations.ResetsServed : Prop :=
  ∀ (s : State) (src tag : Byte),
    (Fresh s src tag 8 → exec (.showLock src tag) s =
      .next (replied src tag 8 .ok [] { s with mgmt := { s.mgmt with showLock := true } })) ∧
    (Fresh s src tag 12 → exec (.resetPrepare src tag) s = .next (replied src tag 12 .ok [] s)) ∧
    (Fresh s src tag 13 →
      let ready := ∃ e, entryOf s.mgmt src = some e ∧ e.kind = 12 ∧ e.count ≤ 1
      (¬ready → exec (.resetExecute src tag) s = .next (replied src tag 13 .sequence [] s)) ∧
      (ready → ∃ u, exec (.resetExecute src tag) s = .next (replied src tag 13 .ok [] u) ∧
        Only [.cells, .router, .talk, .mix, .panel, .tally, .lamp, .mgmt] s u ∧
        u.cells = { CellEngine.reset with
          tag := s.cells.tag, loss := s.cells.loss, undeliverable := s.cells.undeliverable
          unknownKind := s.cells.unknownKind, malformed := s.cells.malformed, misaddressed := s.cells.misaddressed } ∧
        u.router = { Router.reset with tdmOut := s.router.tdmOut, insertions := s.router.insertions } ∧ u.talk = TalkAuthority.reset ∧
        u.mix = MixEngine.reset ∧ u.panel.maps = Panel.reset.maps ∧ u.panel.entries = Panel.reset.entries ∧
        u.panel.keys = Panel.reset.keys ∧
        (∀ i : LineId, u.panel.lines[i] =
          { state := .absent, panelId := none, scanNo := none, map := none, timeout := 0
            badScans := s.panel.lines[i].badScans, lamps := s.panel.lines[i].lamps }) ∧
        u.tally = { Tally.reset with
          rejects := s.tally.rejects, gpiCount := s.tally.gpiCount, gpiDue := s.tally.gpiDue } ∧
        u.lamp = { LampDriver.reset with
          periodCount := s.lamp.periodCount, periodDue := s.lamp.periodDue, senseDue := s.lamp.senseDue } ∧
        u.mgmt = { params := { ctrl := 0, lease := 40, interval := 1920, offset := 0, flash := 16, hold := 60 }
                   showLock := false, load := .closed none, requesters := s.mgmt.requesters
                   sticky := s.mgmt.sticky }))
end

