-- ==== Sys2Proof/Laws/State.lean ====
section
/-! SUPPORT. One lemma for each field and each update of one block of the state, so that no proof unfolds a record
update; and the lemmas of the kernel-friendly vectors. -/

namespace Sys2Proof.Machine

open Sys2Proof

/-! ### Vectors -/

@[simp] theorem vof_get {α : Type} (n : Nat) (f : Fin n → α) (i : Fin n) : (vof n f)[i] = f i := by
  simp [vof, Fin.getElem_fin]

@[simp] theorem vof_getElem {α : Type} (n : Nat) (f : Fin n → α) (i : Nat) (h : i < n) : (vof n f)[i] = f ⟨i, h⟩ := by
  simp [vof]

@[simp] theorem vmap_get {α β : Type} {n : Nat} (f : α → β) (v : Vector α n) (i : Fin n) :
    (vmap f v)[i] = f v[i] := by
  simp [vmap, Fin.getElem_fin]

@[simp] theorem vmap_getElem {α β : Type} {n : Nat} (f : α → β) (v : Vector α n) (i : Nat) (h : i < n) :
    (vmap f v)[i] = f v[i] := by
  simp [vmap]

/-- What `vmod` leaves at each place. -/
theorem vmod_get {α : Type} {n : Nat} (v : Vector α n) (i j : Fin n) (f : α → α) :
    (vmod v i f)[j] = if i = j then f v[i] else v[j] := by
  simp only [vmod, Fin.getElem_fin, Vector.getElem_set]
  by_cases h : i = j
  · simp [h]
  · have : i.val ≠ j.val := fun e => h (Fin.ext e)
    simp [h, this]

@[simp] theorem vmod_same {α : Type} {n : Nat} (v : Vector α n) (i : Fin n) (f : α → α) : (vmod v i f)[i] = f v[i] := by
  rw [vmod_get, if_pos rfl]

/-- What `Vector.set` leaves at each place. -/
theorem vset_get {α : Type} {n : Nat} (v : Vector α n) (i j : Fin n) (x : α) :
    (v.set i x)[j] = if i = j then x else v[j] := by
  simp only [Fin.getElem_fin, Vector.getElem_set]
  by_cases h : i = j
  · simp [h]
  · have : i.val ≠ j.val := fun e => h (Fin.ext e)
    simp [h, this]

/-! ### Updates of one block -/

section
variable (s : State) (f : Trunk → Trunk)
@[simp] theorem State.modTrunk_trunk : (s.modTrunk f).trunk = f s.trunk := rfl
@[simp] theorem State.modTrunk_sp : (s.modTrunk f).sp = s.sp := rfl
@[simp] theorem State.modTrunk_cells : (s.modTrunk f).cells = s.cells := rfl
@[simp] theorem State.modTrunk_router : (s.modTrunk f).router = s.router := rfl
@[simp] theorem State.modTrunk_talk : (s.modTrunk f).talk = s.talk := rfl
@[simp] theorem State.modTrunk_mix : (s.modTrunk f).mix = s.mix := rfl
@[simp] theorem State.modTrunk_panel : (s.modTrunk f).panel = s.panel := rfl
@[simp] theorem State.modTrunk_tally : (s.modTrunk f).tally = s.tally := rfl
@[simp] theorem State.modTrunk_lamp : (s.modTrunk f).lamp = s.lamp := rfl
@[simp] theorem State.modTrunk_mgmt : (s.modTrunk f).mgmt = s.mgmt := rfl
@[simp] theorem State.modTrunk_start : (s.modTrunk f).start = s.start := rfl
@[simp] theorem State.modTrunk_freeCount : (s.modTrunk f).freeCount = s.freeCount := rfl
@[simp] theorem State.modTrunk_pending : (s.modTrunk f).pending = s.pending := rfl
end

section
variable (s : State) (f : SwitchUnit → SwitchUnit)
@[simp] theorem State.modSp_trunk : (s.modSp f).trunk = s.trunk := rfl
@[simp] theorem State.modSp_sp : (s.modSp f).sp = f s.sp := rfl
@[simp] theorem State.modSp_cells : (s.modSp f).cells = s.cells := rfl
@[simp] theorem State.modSp_router : (s.modSp f).router = s.router := rfl
@[simp] theorem State.modSp_talk : (s.modSp f).talk = s.talk := rfl
@[simp] theorem State.modSp_mix : (s.modSp f).mix = s.mix := rfl
@[simp] theorem State.modSp_panel : (s.modSp f).panel = s.panel := rfl
@[simp] theorem State.modSp_tally : (s.modSp f).tally = s.tally := rfl
@[simp] theorem State.modSp_lamp : (s.modSp f).lamp = s.lamp := rfl
@[simp] theorem State.modSp_mgmt : (s.modSp f).mgmt = s.mgmt := rfl
@[simp] theorem State.modSp_start : (s.modSp f).start = s.start := rfl
@[simp] theorem State.modSp_freeCount : (s.modSp f).freeCount = s.freeCount := rfl
@[simp] theorem State.modSp_pending : (s.modSp f).pending = s.pending := rfl
end

section
variable (s : State) (f : CellEngine → CellEngine)
@[simp] theorem State.modCells_trunk : (s.modCells f).trunk = s.trunk := rfl
@[simp] theorem State.modCells_sp : (s.modCells f).sp = s.sp := rfl
@[simp] theorem State.modCells_cells : (s.modCells f).cells = f s.cells := rfl
@[simp] theorem State.modCells_router : (s.modCells f).router = s.router := rfl
@[simp] theorem State.modCells_talk : (s.modCells f).talk = s.talk := rfl
@[simp] theorem State.modCells_mix : (s.modCells f).mix = s.mix := rfl
@[simp] theorem State.modCells_panel : (s.modCells f).panel = s.panel := rfl
@[simp] theorem State.modCells_tally : (s.modCells f).tally = s.tally := rfl
@[simp] theorem State.modCells_lamp : (s.modCells f).lamp = s.lamp := rfl
@[simp] theorem State.modCells_mgmt : (s.modCells f).mgmt = s.mgmt := rfl
@[simp] theorem State.modCells_start : (s.modCells f).start = s.start := rfl
@[simp] theorem State.modCells_freeCount : (s.modCells f).freeCount = s.freeCount := rfl
@[simp] theorem State.modCells_pending : (s.modCells f).pending = s.pending := rfl
end

section
variable (s : State) (f : Router → Router)
@[simp] theorem State.modRouter_trunk : (s.modRouter f).trunk = s.trunk := rfl
@[simp] theorem State.modRouter_sp : (s.modRouter f).sp = s.sp := rfl
@[simp] theorem State.modRouter_cells : (s.modRouter f).cells = s.cells := rfl
@[simp] theorem State.modRouter_router : (s.modRouter f).router = f s.router := rfl
@[simp] theorem State.modRouter_talk : (s.modRouter f).talk = s.talk := rfl
@[simp] theorem State.modRouter_mix : (s.modRouter f).mix = s.mix := rfl
@[simp] theorem State.modRouter_panel : (s.modRouter f).panel = s.panel := rfl
@[simp] theorem State.modRouter_tally : (s.modRouter f).tally = s.tally := rfl
@[simp] theorem State.modRouter_lamp : (s.modRouter f).lamp = s.lamp := rfl
@[simp] theorem State.modRouter_mgmt : (s.modRouter f).mgmt = s.mgmt := rfl
@[simp] theorem State.modRouter_start : (s.modRouter f).start = s.start := rfl
@[simp] theorem State.modRouter_freeCount : (s.modRouter f).freeCount = s.freeCount := rfl
@[simp] theorem State.modRouter_pending : (s.modRouter f).pending = s.pending := rfl
end

section
variable (s : State) (f : TalkAuthority → TalkAuthority)
@[simp] theorem State.modTalk_trunk : (s.modTalk f).trunk = s.trunk := rfl
@[simp] theorem State.modTalk_sp : (s.modTalk f).sp = s.sp := rfl
@[simp] theorem State.modTalk_cells : (s.modTalk f).cells = s.cells := rfl
@[simp] theorem State.modTalk_router : (s.modTalk f).router = s.router := rfl
@[simp] theorem State.modTalk_talk : (s.modTalk f).talk = f s.talk := rfl
@[simp] theorem State.modTalk_mix : (s.modTalk f).mix = s.mix := rfl
@[simp] theorem State.modTalk_panel : (s.modTalk f).panel = s.panel := rfl
@[simp] theorem State.modTalk_tally : (s.modTalk f).tally = s.tally := rfl
@[simp] theorem State.modTalk_lamp : (s.modTalk f).lamp = s.lamp := rfl
@[simp] theorem State.modTalk_mgmt : (s.modTalk f).mgmt = s.mgmt := rfl
@[simp] theorem State.modTalk_start : (s.modTalk f).start = s.start := rfl
@[simp] theorem State.modTalk_freeCount : (s.modTalk f).freeCount = s.freeCount := rfl
@[simp] theorem State.modTalk_pending : (s.modTalk f).pending = s.pending := rfl
end

section
variable (s : State) (f : MixEngine → MixEngine)
@[simp] theorem State.modMix_trunk : (s.modMix f).trunk = s.trunk := rfl
@[simp] theorem State.modMix_sp : (s.modMix f).sp = s.sp := rfl
@[simp] theorem State.modMix_cells : (s.modMix f).cells = s.cells := rfl
@[simp] theorem State.modMix_router : (s.modMix f).router = s.router := rfl
@[simp] theorem State.modMix_talk : (s.modMix f).talk = s.talk := rfl
@[simp] theorem State.modMix_mix : (s.modMix f).mix = f s.mix := rfl
@[simp] theorem State.modMix_panel : (s.modMix f).panel = s.panel := rfl
@[simp] theorem State.modMix_tally : (s.modMix f).tally = s.tally := rfl
@[simp] theorem State.modMix_lamp : (s.modMix f).lamp = s.lamp := rfl
@[simp] theorem State.modMix_mgmt : (s.modMix f).mgmt = s.mgmt := rfl
@[simp] theorem State.modMix_start : (s.modMix f).start = s.start := rfl
@[simp] theorem State.modMix_freeCount : (s.modMix f).freeCount = s.freeCount := rfl
@[simp] theorem State.modMix_pending : (s.modMix f).pending = s.pending := rfl
end

section
variable (s : State) (f : Panel → Panel)
@[simp] theorem State.modPanel_trunk : (s.modPanel f).trunk = s.trunk := rfl
@[simp] theorem State.modPanel_sp : (s.modPanel f).sp = s.sp := rfl
@[simp] theorem State.modPanel_cells : (s.modPanel f).cells = s.cells := rfl
@[simp] theorem State.modPanel_router : (s.modPanel f).router = s.router := rfl
@[simp] theorem State.modPanel_talk : (s.modPanel f).talk = s.talk := rfl
@[simp] theorem State.modPanel_mix : (s.modPanel f).mix = s.mix := rfl
@[simp] theorem State.modPanel_panel : (s.modPanel f).panel = f s.panel := rfl
@[simp] theorem State.modPanel_tally : (s.modPanel f).tally = s.tally := rfl
@[simp] theorem State.modPanel_lamp : (s.modPanel f).lamp = s.lamp := rfl
@[simp] theorem State.modPanel_mgmt : (s.modPanel f).mgmt = s.mgmt := rfl
@[simp] theorem State.modPanel_start : (s.modPanel f).start = s.start := rfl
@[simp] theorem State.modPanel_freeCount : (s.modPanel f).freeCount = s.freeCount := rfl
@[simp] theorem State.modPanel_pending : (s.modPanel f).pending = s.pending := rfl
end

section
variable (s : State) (f : Tally → Tally)
@[simp] theorem State.modTally_trunk : (s.modTally f).trunk = s.trunk := rfl
@[simp] theorem State.modTally_sp : (s.modTally f).sp = s.sp := rfl
@[simp] theorem State.modTally_cells : (s.modTally f).cells = s.cells := rfl
@[simp] theorem State.modTally_router : (s.modTally f).router = s.router := rfl
@[simp] theorem State.modTally_talk : (s.modTally f).talk = s.talk := rfl
@[simp] theorem State.modTally_mix : (s.modTally f).mix = s.mix := rfl
@[simp] theorem State.modTally_panel : (s.modTally f).panel = s.panel := rfl
@[simp] theorem State.modTally_tally : (s.modTally f).tally = f s.tally := rfl
@[simp] theorem State.modTally_lamp : (s.modTally f).lamp = s.lamp := rfl
@[simp] theorem State.modTally_mgmt : (s.modTally f).mgmt = s.mgmt := rfl
@[simp] theorem State.modTally_start : (s.modTally f).start = s.start := rfl
@[simp] theorem State.modTally_freeCount : (s.modTally f).freeCount = s.freeCount := rfl
@[simp] theorem State.modTally_pending : (s.modTally f).pending = s.pending := rfl
end

section
variable (s : State) (f : LampDriver → LampDriver)
@[simp] theorem State.modLamp_trunk : (s.modLamp f).trunk = s.trunk := rfl
@[simp] theorem State.modLamp_sp : (s.modLamp f).sp = s.sp := rfl
@[simp] theorem State.modLamp_cells : (s.modLamp f).cells = s.cells := rfl
@[simp] theorem State.modLamp_router : (s.modLamp f).router = s.router := rfl
@[simp] theorem State.modLamp_talk : (s.modLamp f).talk = s.talk := rfl
@[simp] theorem State.modLamp_mix : (s.modLamp f).mix = s.mix := rfl
@[simp] theorem State.modLamp_panel : (s.modLamp f).panel = s.panel := rfl
@[simp] theorem State.modLamp_tally : (s.modLamp f).tally = s.tally := rfl
@[simp] theorem State.modLamp_lamp : (s.modLamp f).lamp = f s.lamp := rfl
@[simp] theorem State.modLamp_mgmt : (s.modLamp f).mgmt = s.mgmt := rfl
@[simp] theorem State.modLamp_start : (s.modLamp f).start = s.start := rfl
@[simp] theorem State.modLamp_freeCount : (s.modLamp f).freeCount = s.freeCount := rfl
@[simp] theorem State.modLamp_pending : (s.modLamp f).pending = s.pending := rfl
end

section
variable (s : State) (f : Mgmt → Mgmt)
@[simp] theorem State.modMgmt_trunk : (s.modMgmt f).trunk = s.trunk := rfl
@[simp] theorem State.modMgmt_sp : (s.modMgmt f).sp = s.sp := rfl
@[simp] theorem State.modMgmt_cells : (s.modMgmt f).cells = s.cells := rfl
@[simp] theorem State.modMgmt_router : (s.modMgmt f).router = s.router := rfl
@[simp] theorem State.modMgmt_talk : (s.modMgmt f).talk = s.talk := rfl
@[simp] theorem State.modMgmt_mix : (s.modMgmt f).mix = s.mix := rfl
@[simp] theorem State.modMgmt_panel : (s.modMgmt f).panel = s.panel := rfl
@[simp] theorem State.modMgmt_tally : (s.modMgmt f).tally = s.tally := rfl
@[simp] theorem State.modMgmt_lamp : (s.modMgmt f).lamp = s.lamp := rfl
@[simp] theorem State.modMgmt_mgmt : (s.modMgmt f).mgmt = f s.mgmt := rfl
@[simp] theorem State.modMgmt_start : (s.modMgmt f).start = s.start := rfl
@[simp] theorem State.modMgmt_freeCount : (s.modMgmt f).freeCount = s.freeCount := rfl
@[simp] theorem State.modMgmt_pending : (s.modMgmt f).pending = s.pending := rfl
end

section
variable (s : State)
@[simp] theorem State.countChoice_trunk : s.countChoice.trunk = s.trunk := rfl
@[simp] theorem State.countChoice_sp : s.countChoice.sp = s.sp := rfl
@[simp] theorem State.countChoice_cells : s.countChoice.cells = s.cells := rfl
@[simp] theorem State.countChoice_router : s.countChoice.router = s.router := rfl
@[simp] theorem State.countChoice_talk : s.countChoice.talk = s.talk := rfl
@[simp] theorem State.countChoice_mix : s.countChoice.mix = s.mix := rfl
@[simp] theorem State.countChoice_panel : s.countChoice.panel = s.panel := rfl
@[simp] theorem State.countChoice_tally : s.countChoice.tally = s.tally := rfl
@[simp] theorem State.countChoice_lamp : s.countChoice.lamp = s.lamp := rfl
@[simp] theorem State.countChoice_mgmt : s.countChoice.mgmt = s.mgmt := rfl
@[simp] theorem State.countChoice_start : s.countChoice.start = s.start := rfl
@[simp] theorem State.countChoice_freeCount : s.countChoice.freeCount = s.freeCount + 1 := rfl
@[simp] theorem State.countChoice_pending : s.countChoice.pending = s.pending := rfl
end

/-! ### Ports and classes -/

@[simp] theorem portOf_modPort_same (p : Port) (f : PortState → PortState) (t : Trunk) :
    portOf (modPort p f t) p = f (portOf t p) := by cases p <;> rfl

@[simp] theorem portOf_modPort_other (p : Port) (f : PortState → PortState) (t : Trunk) :
    portOf (modPort p f t) (other p) = portOf t (other p) := by cases p <;> rfl

@[simp] theorem modPort_addr (p : Port) (f : PortState → PortState) (t : Trunk) : (modPort p f t).addr = t.addr := by
  cases p <;> rfl

@[simp] theorem modPort_headStrap (p : Port) (f : PortState → PortState) (t : Trunk) :
    (modPort p f t).headStrap = t.headStrap := by cases p <;> rfl

@[simp] theorem modPort_yielded (p : Port) (f : PortState → PortState) (t : Trunk) :
    (modPort p f t).yielded = t.yielded := by cases p <;> rfl

@[simp] theorem modPort_mode (p : Port) (f : PortState → PortState) (t : Trunk) : (modPort p f t).mode = t.mode := by
  cases p <;> rfl

@[simp] theorem ByClass.get_mod_same {α : Type} (b : ByClass α) (k : CellClass) (f : α → α) :
    (b.mod k f).get k = f (b.get k) := by cases k <;> rfl

theorem ByClass.get_mod {α : Type} (b : ByClass α) (k j : CellClass) (f : α → α) :
    (b.mod k f).get j = if k = j then f (b.get j) else b.get j := by cases k <;> cases j <;> rfl

@[simp] theorem ByClass.get_map {α β : Type} (b : ByClass α) (f : α → β) (k : CellClass) :
    (b.map f).get k = f (b.get k) := by cases k <;> rfl

end Sys2Proof.Machine
end

