-- ==== Sys2Proof/Laws/Frames.lean ====
section
/-! SUPPORT. Frames: for each shared operation, the blocks of the state it can change. -/

namespace Sys2Proof.Machine

open Sys2Proof

/-! ### Composition -/

theorem Only.refl (bs : List Block) (s : State) : Only bs s s := ⟨fun b _ => by cases b <;> rfl⟩

theorem Only.trans {bs : List Block} {s t u : State} (h : Only bs s t) (g : Only bs t u) : Only bs s u := by
  refine ⟨fun b hb => ?_⟩
  have h1 := h.keep b hb
  have h2 := g.keep b hb
  cases b <;> simp only [same] at * <;> rw [h2, h1]

theorem Only.mono {bs cs : List Block} {s t : State} (h : Only bs s t) (hs : bs ⊆ cs) : Only cs s t :=
  ⟨fun b hb => h.keep b fun hm => hb (hs hm)⟩

theorem Only.ite {bs : List Block} {s t u : State} {p : Prop} [Decidable p] (h : p → Only bs s t) (g : ¬p → Only bs s u) :
    Only bs s (if p then t else u) := by
  split
  · exact h ‹_›
  · exact g ‹_›

theorem only_foldl {α : Type} {bs : List Block} (f : State → α → State) (h : ∀ s x, Only bs s (f s x)) (l : List α)
    (s : State) : Only bs s (l.foldl f s) := by
  induction l generalizing s with
  | nil => exact Only.refl bs s
  | cons x l ih => exact (h s x).trans (ih _)

theorem only_forFin {bs : List Block} {n : Nat} (f : Fin n → State → State) (h : ∀ i s, Only bs s (f i s)) (s : State) :
    Only bs s (forFin n f s) := only_foldl _ (fun s i => h i s) _ s

/-! ### Updates of one block -/

theorem modTrunk_only (s : State) (f : Trunk → Trunk) : Only [.trunk] s (s.modTrunk f) := by
  refine ⟨fun b hb => ?_⟩; cases b <;> first | rfl | simp at hb
theorem modSp_only (s : State) (f : SwitchUnit → SwitchUnit) : Only [.sp] s (s.modSp f) := by
  refine ⟨fun b hb => ?_⟩; cases b <;> first | rfl | simp at hb
theorem modCells_only (s : State) (f : CellEngine → CellEngine) : Only [.cells] s (s.modCells f) := by
  refine ⟨fun b hb => ?_⟩; cases b <;> first | rfl | simp at hb
theorem modRouter_only (s : State) (f : Router → Router) : Only [.router] s (s.modRouter f) := by
  refine ⟨fun b hb => ?_⟩; cases b <;> first | rfl | simp at hb
theorem modTalk_only (s : State) (f : TalkAuthority → TalkAuthority) : Only [.talk] s (s.modTalk f) := by
  refine ⟨fun b hb => ?_⟩; cases b <;> first | rfl | simp at hb
theorem modMix_only (s : State) (f : MixEngine → MixEngine) : Only [.mix] s (s.modMix f) := by
  refine ⟨fun b hb => ?_⟩; cases b <;> first | rfl | simp at hb
theorem modPanel_only (s : State) (f : Panel → Panel) : Only [.panel] s (s.modPanel f) := by
  refine ⟨fun b hb => ?_⟩; cases b <;> first | rfl | simp at hb
theorem modTally_only (s : State) (f : Tally → Tally) : Only [.tally] s (s.modTally f) := by
  refine ⟨fun b hb => ?_⟩; cases b <;> first | rfl | simp at hb
theorem modLamp_only (s : State) (f : LampDriver → LampDriver) : Only [.lamp] s (s.modLamp f) := by
  refine ⟨fun b hb => ?_⟩; cases b <;> first | rfl | simp at hb
theorem modMgmt_only (s : State) (f : Mgmt → Mgmt) : Only [.mgmt] s (s.modMgmt f) := by
  refine ⟨fun b hb => ?_⟩; cases b <;> first | rfl | simp at hb
theorem countChoice_only (s : State) : Only [.choice] s s.countChoice := by
  refine ⟨fun b hb => ?_⟩; cases b <;> first | rfl | simp at hb

/-! ### Cells and reports: the Cell Engine and the sticky flags -/

/-- The blocks that a created cell or a report can change. -/
def cellBlocks : List Block := [.cells, .mgmt]

theorem loseCell_only (k : CellClass) (s : State) : Only cellBlocks s (loseCell k s) :=
  ((modCells_only s _).mono (by decide)).trans ((modMgmt_only _ _).mono (by decide))

theorem createRaw_only (kind : CellKind) (dest : Byte) (tag : Option Byte) (payload : List Byte) (s : State) :
    Only cellBlocks s (createRaw kind dest tag payload s).1 := by
  have hm : ∀ (s : State) (f : CellEngine → CellEngine), Only cellBlocks s (s.modCells f) :=
    fun s f => (modCells_only s f).mono (by decide)
  unfold createRaw
  split
  · exact Only.refl _ s
  · split
    · exact hm s _
    · split
      · exact loseCell_only _ s
      · have h1 : Only cellBlocks s (if tag.isNone then s.modCells fun c => { c with tag := c.tag + 1 } else s) :=
          Only.ite (fun _ => hm s _) fun _ => Only.refl _ s
        dsimp only
        split
        · refine Only.trans h1 ?_; dsimp only; exact hm _ _
        · refine Only.trans h1 ?_; dsimp only; exact hm _ _

theorem bufferReturned_only (s : State) : Only cellBlocks s (bufferReturned s) := by
  unfold bufferReturned
  split
  · have h1 : Only cellBlocks s ((s.modCells fun c => { c with exhausted := false }).modMgmt
        fun m => { m with sticky := setSticky .poolExhausted m.sticky }) :=
      ((modCells_only s _).mono (by decide)).trans ((modMgmt_only _ _).mono (by decide))
    dsimp only
    split
    · exact h1.trans (createRaw_only ..)
    · exact h1
  · exact Only.refl _ s

theorem createCell_only (kind : CellKind) (dest : Byte) (tag : Option Byte) (payload : List Byte) (s : State) :
    Only cellBlocks s (createCell kind dest tag payload s).1 := by
  unfold createCell
  dsimp only
  split
  · exact (createRaw_only ..).trans (bufferReturned_only _)
  · exact createRaw_only ..

theorem sendCell_only (kind : CellKind) (dest : Byte) (tag : Option Byte) (payload : List Byte) (s : State) :
    Only cellBlocks s (sendCell kind dest tag payload s) := createCell_only ..

theorem report_only (k : EventKind) (fields : List Byte) (s : State) : Only cellBlocks s (report k fields s) := by
  unfold report
  have h1 : Only cellBlocks s (s.modMgmt fun m => { m with sticky := setSticky k m.sticky }) :=
    (modMgmt_only s _).mono (by decide)
  dsimp only
  split
  · exact h1.trans (sendCell_only ..)
  · exact h1

theorem prune_only (cw ccw : Bool) (s : State) : Only cellBlocks s (prune cw ccw s) := by
  unfold prune
  dsimp only
  have h1 := fun f => (modCells_only s f).mono (cs := cellBlocks) (by decide)
  split
  · exact (h1 _).trans (bufferReturned_only _)
  · exact h1 _

theorem grant_only (d : Dir) (s : State) : Only cellBlocks s (grant d s).1 := by
  unfold grant
  split
  · exact Only.refl _ s
  · dsimp only
    have h1 := fun f => (modCells_only s f).mono (cs := cellBlocks) (by decide)
    split
    · exact h1 _
    · exact (h1 _).trans (bufferReturned_only _)

/-- The blocks that a change of roles can change. -/
def roleBlocks : List Block := [.trunk, .cells, .mgmt]

theorem cell_role {s t : State} (h : Only cellBlocks s t) : Only roleBlocks s t := h.mono (by decide)

theorem rolesChanged_only (old : Trunk) (s : State) : Only roleBlocks s (rolesChanged old s) := by
  unfold rolesChanged
  dsimp only
  have h1 := fun f => (modTrunk_only s f).mono (cs := roleBlocks) (by decide)
  split
  · exact (h1 _).trans (cell_role (prune_only ..))
  · exact h1 _

theorem reportLinkChange_only (p : Option Port) (s : State) : Only cellBlocks s (reportLinkChange p s) := report_only ..

theorem lockMoved_only (old : Trunk) (p : Port) (s : State) : Only roleBlocks s (lockMoved old p s) := by
  unfold lockMoved
  split
  · exact Only.refl _ s
  · exact (rolesChanged_only ..).trans (cell_role (reportLinkChange_only ..))

/-! ### The Feed Router -/

/-- The blocks that a take can change. -/
def takeBlocks : List Block := [.router, .cells, .mgmt]

theorem modRoute_only (d : DestId) (f : RouteEntry → RouteEntry) (s : State) : Only [.router] s (modRoute d f s) :=
  modRouter_only ..

theorem recordRefusal_only (d : DestId) (r : Byte) (s : State) : Only [.router] s (recordRefusal d r s) :=
  modRouter_only ..

theorem acceptTake_only (r : Byte) (ps : List (DestId × Source)) (t : Target) (s : State) :
    Only takeBlocks s (acceptTake r ps t s).1 := by
  unfold acceptTake
  dsimp only
  have h1 : Only takeBlocks s (ps.foldl (fun acc p => setPending r (heldTarget s.sp.epoch t) p acc) s) :=
    only_foldl _ (fun s p => (modRoute_only ..).mono (by decide)) _ s
  split
  · exact h1.trans ((report_only ..).mono (by decide))
  · exact h1

theorem routerTake_only (r : Byte) (ps : List (Byte × Half)) (t : Target) (s : State) :
    Only takeBlocks s (routerTake r ps t s).1 := by
  unfold routerTake
  split
  · exact acceptTake_only ..
  · exact Only.refl _ s
  · exact (recordRefusal_only ..).mono (by decide)

theorem takeRequest_only (r : Byte) (m : TakeMsg) (s : State) : Only takeBlocks s (takeRequest r m s).1 := by
  unfold takeRequest
  dsimp only
  split
  · exact Only.refl _ s
  · split
    · exact Only.refl _ s
    · exact routerTake_only ..

theorem protectRequest_only (again : Bool) (r : Byte) (d : DestId) (f : RouteEntry → RouteEntry) (s : State) :
    Only [.router] s (protectRequest again r d f s).1 := by
  unfold protectRequest
  split
  · exact recordRefusal_only ..
  · exact modRoute_only ..

theorem onDestination_only {bs : List Block} (dest : Byte) (act : DestId → State × ProtectAnswer) (s : State)
    (h : ∀ d, Only bs s (act d).1) : Only bs s (onDestination dest act s).1 := by
  unfold onDestination
  split
  · exact Only.refl _ s
  · exact h _

theorem routerProtect_only (r dest mode : Byte) (s : State) : Only [.router] s (routerProtect r dest mode s).1 := by
  refine onDestination_only _ _ _ fun d => ?_
  split
  · exact Only.refl _ s
  · exact protectRequest_only ..

theorem routerRelease_only (r dest : Byte) (s : State) : Only [.router] s (routerRelease r dest s).1 :=
  onDestination_only _ _ _ fun _ => protectRequest_only ..

theorem routerAirlock_only (r dest : Byte) (s : State) : Only [.router] s (routerAirlock r dest s).1 :=
  onDestination_only _ _ _ fun _ => protectRequest_only ..

theorem writeRoute_only (i : Nat) (e : List Byte) (s : State) : Only [.router] s (writeRoute i e s).1 := by
  unfold writeRoute
  split
  · exact Only.refl _ s
  · split
    · split <;> exact Only.refl _ s
    · split
      · exact Only.refl _ s
      · exact modRoute_only ..
      · split
        · exact Only.refl _ s
        · exact modRoute_only ..

theorem routerSwitchPoint_only (e : Epoch) (s : State) : Only [.router] s (routerSwitchPoint e s) := modRouter_only ..

theorem clearCollisions_only (s : State) : Only [.router] s (clearCollisions s) := modRouter_only ..

/-! ### The Talk Authority -/

/-- The blocks that talk can change. -/
def talkBlocks : List Block := [.talk, .cells, .mgmt]

theorem cell_talk {s t : State} (h : Only cellBlocks s t) : Only talkBlocks s t := h.mono (by decide)

theorem modTalk_talk (s : State) (f : TalkAuthority → TalkAuthority) : Only talkBlocks s (s.modTalk f) :=
  (modTalk_only s f).mono (by decide)

theorem modList_only (l : ListId) (f : List Talker → List Talker) (s : State) : Only [.talk] s (modList l f s) :=
  modTalk_only ..

theorem modOrigin_only (i : OriginId) (f : OriginEntry → OriginEntry) (s : State) : Only [.talk] s (modOrigin i f s) :=
  modTalk_only ..

theorem announceListOn_only (l : ListId) (t : Talker) (s : State) : Only cellBlocks s (announceListOn l t s) := by
  cases l
  · exact Only.refl _ s
  · exact sendCell_only ..

theorem announceListOff_only (l : ListId) (n : Byte) (i : OriginId) (s : State) :
    Only cellBlocks s (announceListOff l n i s) := by
  cases l
  · exact Only.refl _ s
  · exact sendCell_only ..

theorem outcomeAt_only (target : TalkTarget) (i : OriginId) (o : TalkOutcome) (s : State) :
    Only talkBlocks s (outcomeAt target i o s) := by
  unfold outcomeAt
  have h1 : Only talkBlocks s (if o = .granted then sendTalkOff target i s else s) :=
    Only.ite (fun _ => cell_talk (sendCell_only ..)) fun _ => Only.refl _ s
  dsimp only
  split
  · split
    · exact (modOrigin_only ..).mono (by decide)
    · exact h1
  · exact h1

theorem answerTalk_only (n : Byte) (i : OriginId) (target : TalkTarget) (o : TalkOutcome) (tag : Option Byte)
    (s : State) : Only talkBlocks s (answerTalk n i target o tag s) := by
  unfold answerTalk
  split
  · exact outcomeAt_only ..
  · exact cell_talk (sendCell_only ..)

theorem admitTo_only (l : ListId) (target : TalkTarget) (t : Talker) (tag : Option Byte) (s : State) :
    Only talkBlocks s (admitTo l target t tag s) := by
  have h1 : ∀ x, Only talkBlocks s (modList l (fun _ => x) s) := fun x => (modList_only ..).mono (by decide)
  unfold admitTo
  dsimp only
  split
  · exact ((h1 _).trans (cell_talk (announceListOn_only ..))).trans (answerTalk_only ..)
  · exact ((h1 _).trans (cell_talk (announceListOn_only ..))).trans (answerTalk_only ..)
  · exact ((((h1 _).trans (cell_talk (announceListOff_only ..))).trans (cell_talk (announceListOn_only ..))).trans
      (answerTalk_only ..)).trans (answerTalk_only ..)
  · exact answerTalk_only ..

theorem handleTalkOn_only (target : TalkTarget) (t : Talker) (tag : Option Byte) (s : State) :
    Only talkBlocks s (handleTalkOn target t tag s) := by
  unfold handleTalkOn
  split
  · exact Only.refl _ s
  · exact admitTo_only ..

theorem handleTalkOff_only (target : TalkTarget) (n : Byte) (i : OriginId) (s : State) :
    Only talkBlocks s (handleTalkOff target n i s) := by
  unfold handleTalkOff
  split
  · exact Only.refl _ s
  · split
    · exact ((modList_only ..).mono (by decide)).trans (cell_talk (announceListOff_only ..))
    · exact Only.refl _ s

theorem takeTalkOn_only (src tag : Byte) (m : TalkOnMsg) (s : State) : Only talkBlocks s (takeTalkOn src tag m s) := by
  unfold takeTalkOn
  split
  · exact Only.refl _ s
  · exact handleTalkOn_only ..

theorem takeTalkOff_only (src : Byte) (m : TalkOffMsg) (s : State) : Only talkBlocks s (takeTalkOff src m s) := by
  unfold takeTalkOff
  split
  · exact handleTalkOff_only ..
  · exact Only.refl _ s

theorem takeTalkReply_only (m : TalkReplyMsg) (s : State) : Only talkBlocks s (takeTalkReply m s) := by
  unfold takeTalkReply
  split
  · exact outcomeAt_only ..
  · exact Only.refl _ s

theorem takeConfOn_only (m : ConfOnMsg) (s : State) : Only [.talk] s (takeConfOn m s) := by
  unfold takeConfOn
  split
  · exact Only.refl _ s
  · exact Only.ite (fun _ => Only.refl _ s) fun _ => modList_only ..

theorem takeConfOff_only (m : ConfOffMsg) (s : State) : Only [.talk] s (takeConfOff m s) := by
  unfold takeConfOff
  split
  · exact Only.ite (fun _ => Only.refl _ s) fun _ => modList_only ..
  · exact Only.refl _ s

theorem sendOrigin_only (i : OriginId) (s : State) : Only talkBlocks s (sendOrigin i s) := by
  unfold sendOrigin
  split
  · exact Only.refl _ s
  · dsimp only
    split
    · exact ((modOrigin_only ..).mono (by decide)).trans (admitTo_only ..)
    · exact ((modOrigin_only ..).mono (by decide)).trans (cell_talk (sendCell_only ..))

theorem createOrigin_only (m : MapId) (k : KeyId) (sub : Option (Fin 4)) (target : TalkTarget) (s : State) :
    Only talkBlocks s (createOrigin m k sub target s).1 := by
  unfold createOrigin
  split
  · exact Only.refl _ s
  · exact (modTalk_talk ..).trans (sendOrigin_only ..)

theorem endOrigin_only (i : OriginId) (s : State) : Only talkBlocks s (endOrigin i s) := by
  unfold endOrigin
  split
  · exact Only.refl _ s
  · dsimp only
    split
    · exact (modTalk_talk ..).trans (handleTalkOff_only ..)
    · exact (modTalk_talk ..).trans (cell_talk (sendCell_only ..))

theorem endKeyOrigin_only (m : MapId) (k : KeyId) (sub : Option (Fin 4)) (s : State) :
    Only talkBlocks s (endKeyOrigin m k sub s) := by
  unfold endKeyOrigin
  split
  · exact Only.refl _ s
  · exact endOrigin_only ..

theorem endKeyOrigins_only (m : MapId) (k : KeyId) (s : State) : Only talkBlocks s (endKeyOrigins m k s) :=
  (endKeyOrigin_only m k none s).trans (only_forFin _ (fun _ _ => endKeyOrigin_only ..) _)

theorem endMapOrigins_only (m : MapId) (s : State) : Only talkBlocks s (endMapOrigins m s) := by
  refine only_forFin _ (fun i s => ?_) s
  show Only talkBlocks s _
  split
  · exact Only.ite (fun _ => endOrigin_only ..) fun _ => Only.refl _ s
  · exact Only.refl _ s

theorem resendOrigin_only (i : OriginId) (s : State) : Only talkBlocks s (resendOrigin i s) :=
  ((modOrigin_only ..).mono (by decide)).trans (sendOrigin_only ..)

theorem refreshOrigin_only (i : OriginId) (s : State) : Only talkBlocks s (refreshOrigin i s) := by
  unfold refreshOrigin
  dsimp only
  split
  · exact ((modOrigin_only ..).mono (by decide)).trans (resendOrigin_only ..)
  · exact (modOrigin_only ..).mono (by decide)

theorem reportExpired_only (l : ListId) (n : Byte) (i : OriginId) (s : State) :
    Only cellBlocks s (reportExpired l n i s) := by
  unfold reportExpired
  split
  · exact Only.refl _ s
  · exact report_only ..

theorem expireTalker_only (l : ListId) (n : Byte) (i : OriginId) (s : State) :
    Only talkBlocks s (expireTalker l n i s) := by
  unfold expireTalker
  dsimp only
  have h1 : Only talkBlocks s (modList l (dropTalker n i) s) := (modList_only ..).mono (by decide)
  split
  · exact h1.trans (cell_talk (reportExpired_only ..))
  · split
    · exact (h1.trans (cell_talk (sendCell_only ..))).trans (cell_talk (reportExpired_only ..))
    · exact h1

theorem countdownList_only (l : ListId) (s : State) : Only talkBlocks s (countdownList l s) :=
  ((modList_only ..).mono (by decide)).trans (only_foldl _ (fun _ _ => expireTalker_only ..) _ _)

theorem countdownLeases_only (s : State) : Only talkBlocks s (countdownLeases s) :=
  (only_forFin _ (fun _ _ => countdownList_only ..) s).trans (only_forFin _ (fun _ _ => countdownList_only ..) _)

theorem refreshOrigins_only (p : OriginId → Bool) (s : State) : Only talkBlocks s (refreshOrigins p s) := by
  refine only_forFin _ (fun i u => ?_) s
  split
  · exact refreshOrigin_only ..
  · exact Only.refl _ _

/-- The blocks that the Talk Authority can change at a switch point. -/
def talkPointBlocks : List Block := [.talk, .cells, .mgmt, .choice]

theorem talkSwitchPoint_only (s : State) : Only talkPointBlocks s (talkSwitchPoint s) := by
  have h0 : Only talkPointBlocks s s.countChoice := (countChoice_only s).mono (by decide)
  have hm : ∀ {a b : State}, Only talkBlocks a b → Only talkPointBlocks a b := fun h => h.mono (by decide)
  exact ((h0.trans (hm (refreshOrigins_only _ _))).trans (hm (countdownLeases_only _))).trans
    (hm (refreshOrigins_only _ _))

theorem applyLease_only (lease : Nat) (s : State) : Only [.talk] s (applyLease lease s) := modTalk_only ..

theorem writeConf_only (i : Nat) (e : List Byte) (s : State) : Only [.talk] s (writeConf i e s).1 := by
  unfold writeConf
  split
  · exact Only.refl _ s
  · split
    · exact Only.refl _ s
    · dsimp only; exact modTalk_only ..

/-! ### The Mix Engine -/

theorem modRec_only (m : MixId) (f : MixRec → MixRec) (s : State) : Only [.mix] s (modRec m f s) := modMix_only ..

theorem writeMix_only (i : Nat) (e : List Byte) (s : State) : Only [.mix, .talk] s (writeMix i e s).1 := by
  unfold writeMix
  split
  · exact Only.refl _ s
  · split
    · exact Only.refl _ s
    · dsimp only
      refine Only.trans (Only.ite (fun _ => Only.refl _ s) fun _ => ?_) ((modRec_only ..).mono (by decide))
      exact (modTalk_only ..).mono (by decide)

theorem toggleSub_only (m : MixId) (c : ConfId) (s : State) : Only [.mix] s (toggleSub m c s).1 := by
  unfold toggleSub
  dsimp only
  split
  · exact modRec_only ..
  · split
    · exact modRec_only ..
    · exact Only.refl _ s

theorem setKnob_only (m : MixId) (k : Byte) (s : State) : Only [.mix] s (setKnob m k s) := modRec_only ..

theorem clearClipped_only (s : State) : Only [.mix] s (clearClipped s) := modMix_only ..

theorem reportClipped_only (m : MixId) (x : MixPeriod) (w : Bool) (s : State) :
    Only cellBlocks s (reportClipped m x w s) := Only.ite (fun _ => report_only ..) fun _ => Only.refl _ s

/-! ### The Lamp Line Driver -/

/-- The blocks that a lamp fault can change. -/
def lampBlocks : List Block := [.lamp, .cells, .mgmt]

theorem cell_lamp {s t : State} (h : Only cellBlocks s t) : Only lampBlocks s t := h.mono (by decide)

theorem modLine_only (w : WireId) (f : LampLine → LampLine) (s : State) : Only [.lamp] s (modLine w f s) :=
  modLamp_only ..

theorem handGenerator_only (j : LampId) (d : Drive) (s : State) : Only [.lamp] s (handGenerator j d s) :=
  modLamp_only ..

theorem lampSwitchPoint_only (e : Epoch) (s : State) : Only [.lamp] s (lampSwitchPoint e s) := modLamp_only ..

theorem lampPeriodStart_only (s : State) : Only [.lamp] s (lampPeriodStart s) :=
  Only.ite (fun _ => modLamp_only ..) fun _ => Only.refl _ s

theorem installSpare_only (j : LampId) (w x : WireId) (s : State) : Only lampBlocks s (installSpare j w x s) :=
  ((modLamp_only ..).mono (by decide)).trans (cell_lamp (report_only ..))

theorem autoSpare_only (j : LampId) (w : WireId) (s : State) : Only lampBlocks s (autoSpare j w s) := by
  unfold autoSpare
  split
  · split
    · exact cell_lamp (report_only ..)
    · split
      · exact cell_lamp (report_only ..)
      · exact installSpare_only ..
  · exact Only.refl _ s

theorem latchLine_only (j : LampId) (w : WireId) (s : State) : Only lampBlocks s (latchLine j w s) :=
  (((modLine_only ..).mono (by decide)).trans (cell_lamp (report_only ..))).trans (autoSpare_only ..)

theorem faultOn_only (j : LampId) (w : WireId) (s : State) : Only lampBlocks s (faultOn j w s) := by
  unfold faultOn
  dsimp only
  split
  · exact ((modLine_only ..).mono (by decide)).trans (latchLine_only ..)
  · exact ((modLine_only ..).mono (by decide)).trans ((modLine_only ..).mono (by decide))

theorem senseFault_only (w : WireId) (s : State) : Only lampBlocks s (senseFault w s) := by
  unfold senseFault
  split
  · exact Only.refl _ s
  · exact Only.ite (fun _ => faultOn_only ..) fun _ => Only.refl _ s

theorem senseAll_only (reads : BitVec 48) (s : State) : Only lampBlocks s (senseAll reads s) :=
  only_forFin _ (fun w u => Only.ite (fun _ => senseFault_only w u) fun _ => Only.refl _ u) s

theorem takeFaultReads_only (reads : BitVec 48) (s : State) : Only lampBlocks s (takeFaultReads reads s) :=
  Only.ite (fun _ => ((modLamp_only ..).mono (by decide)).trans (senseAll_only ..)) fun _ => Only.refl _ s

theorem clearLampFaults_only (s : State) : Only [.lamp] s (clearLampFaults s) := modLamp_only ..

theorem writeLine_only (i : Nat) (e : List Byte) (s : State) : Only [.lamp] s (writeLine i e s).1 := by
  unfold writeLine
  split
  · exact Only.refl _ s
  · split
    · dsimp only
      rw [apply_ite Prod.fst]
      exact Only.ite (fun _ => Only.refl _ s) fun _ => modLine_only ..
    · exact Only.refl _ s

theorem writeSubst_only (i : Nat) (e : List Byte) (s : State) : Only [.lamp] s (writeSubst i e s).1 := by
  unfold writeSubst
  split
  · exact Only.refl _ s
  · split
    · dsimp only; exact modLamp_only ..
    · split
      · exact Only.refl _ s
      · split
        · exact Only.refl _ s
        · split
          · exact Only.refl _ s
          · split
            · exact Only.refl _ s
            · dsimp only; exact modLamp_only ..

/-! ### The Tally Resolver -/

/-- The blocks that resolution can change. -/
def resolveBlocks : List Block := [.tally, .lamp]

theorem resolveLamp_only (j : LampId) (s : State) : Only resolveBlocks s (resolveLamp j s) :=
  Only.ite (fun _ => Only.refl _ s) fun _ =>
    ((modTally_only ..).mono (by decide)).trans ((handGenerator_only ..).mono (by decide))

theorem resolveFor_only (p : PointId) (s : State) : Only resolveBlocks s (resolveFor p s) :=
  only_forFin _ (fun _ s => Only.ite (fun _ => resolveLamp_only ..) fun _ => Only.refl _ s) s

theorem tallySwitchPoint_only (e : Epoch) (s : State) : Only resolveBlocks s (tallySwitchPoint e s) :=
  ((modTally_only ..).mono (by decide)).trans (only_forFin _ (fun _ _ => resolveLamp_only ..) _)

/-- The blocks that a TALLY_SET can change. -/
def tallySetBlocks : List Block := [.tally, .cells, .mgmt]

theorem takeTallySet_only (src : Byte) (m : TallySetMsg) (s : State) : Only tallySetBlocks s (takeTallySet src m s) := by
  unfold takeTallySet
  split
  · dsimp only
    split
    · exact ((modTally_only ..).mono (by decide)).trans ((report_only ..).mono (by decide))
    · exact (modTally_only ..).mono (by decide)
  · exact (modTally_only ..).mono (by decide)

theorem takeGpiSample_only (c : BitVec 16) (s : State) : Only [.tally] s (takeGpiSample c s) :=
  Only.ite (fun _ => modTally_only ..) fun _ => Only.refl _ s

theorem writeGpi_only (i : Nat) (e : List Byte) (s : State) : Only [.tally] s (writeGpi i e s).1 := by
  unfold writeGpi
  split
  · exact Only.refl _ s
  · split
    · exact Only.refl _ s
    · dsimp only; exact modTally_only ..

theorem writeCamera_only (i : Nat) (e : List Byte) (s : State) : Only [.tally] s (writeCamera i e s).1 := by
  unfold writeCamera
  split
  · exact Only.refl _ s
  · split
    · exact Only.refl _ s
    · dsimp only; exact modTally_only ..

theorem writeTallymap_only (i : Nat) (e : List Byte) (s : State) : Only resolveBlocks s (writeTallymap i e s).1 := by
  unfold writeTallymap
  split
  · exact Only.refl _ s
  · split
    · exact Only.refl _ s
    · exact ((modTally_only ..).mono (by decide)).trans (resolveLamp_only ..)

theorem modCalls_only (f : List Call → List Call) (s : State) : Only resolveBlocks s (modCalls f s) :=
  (modTally_only ..).mono (by decide)

theorem enterCall_only (c : Call) (s : State) : Only resolveBlocks s (enterCall c s) := by
  unfold enterCall
  split
  · exact modCalls_only ..
  · split
    · exact (modCalls_only ..).trans (resolveFor_only ..)
    · split
      · exact ((modCalls_only ..).trans (resolveFor_only ..)).trans (resolveFor_only ..)
      · exact Only.refl _ s

theorem takeCallFor_only (t c : PointId) (d : Nat) (s : State) : Only resolveBlocks s (takeCallFor t c d s) :=
  Only.ite (fun _ => Only.refl _ s) fun _ => enterCall_only ..

theorem takeCall_only (m : CallMsg) (s : State) : Only resolveBlocks s (takeCall m s) := by
  unfold takeCall
  split
  · exact takeCallFor_only ..
  · exact Only.refl _ s

theorem cancelCall_only (t c : PointId) (s : State) : Only resolveBlocks s (cancelCall t c s) :=
  Only.ite (fun _ => (modCalls_only ..).trans (resolveFor_only ..)) fun _ => Only.refl _ s

theorem takeCancel_only (m : CancelMsg) (s : State) : Only resolveBlocks s (takeCancel m s) := by
  unfold takeCancel
  split
  · exact cancelCall_only ..
  · exact Only.refl _ s

/-! ### Panel lines and keys -/

/-- The blocks that a key's function can change. -/
def keyBlocks : List Block := [.panel, .talk, .mix, .router, .tally, .lamp, .cells, .mgmt]

theorem cell_key {s t : State} (h : Only cellBlocks s t) : Only keyBlocks s t := h.mono (by decide)
theorem talk_key {s t : State} (h : Only talkBlocks s t) : Only keyBlocks s t := h.mono (by decide)
theorem resolve_key {s t : State} (h : Only resolveBlocks s t) : Only keyBlocks s t := h.mono (by decide)

theorem modKey_only (m : MapId) (k : KeyId) (f : KeyState → KeyState) (s : State) : Only [.panel] s (modKey m k f s) :=
  modPanel_only ..

theorem modKey_key (m : MapId) (k : KeyId) (f : KeyState → KeyState) (s : State) : Only keyBlocks s (modKey m k f s) :=
  (modPanel_only ..).mono (by decide)

theorem modPanelLine_only (i : LineId) (f : PanelLine → PanelLine) (s : State) : Only [.panel] s (modPanelLine i f s) :=
  modPanel_only ..

theorem startTalk_only (m : MapId) (k : KeyId) (t : TalkTarget) (s : State) : Only keyBlocks s (startTalk m k t s) := by
  unfold startTalk
  dsimp only
  split
  · exact talk_key (createOrigin_only ..)
  · exact (talk_key (createOrigin_only ..)).trans (modKey_key ..)

theorem startTallyTalk_only (m : MapId) (k : KeyId) (p : PointId) (s : State) :
    Only keyBlocks s (startTallyTalk m k p s) := by
  unfold startTallyTalk
  dsimp only
  split
  · exact modKey_key ..
  · split
    · exact talk_key (createOrigin_only ..)
    · exact (talk_key (createOrigin_only ..)).trans (modKey_key ..)

theorem endTallyTalk_only (m : MapId) (k : KeyId) (p : PointId) (s : State) :
    Only keyBlocks s (endTallyTalk m k p s) := by
  unfold endTallyTalk
  dsimp only
  refine Only.trans ?_ (modKey_key ..)
  split
  · exact Only.refl _ s
  · exact talk_key (endOrigin_only ..)

theorem answerCall_only (m : MapId) (p : PointId) (s : State) : Only keyBlocks s (answerCall m p s) := by
  unfold answerCall
  split
  · exact Only.refl _ s
  · split
    · exact (cell_key (sendCell_only ..)).trans (resolve_key (cancelCall_only ..))
    · exact Only.refl _ s

theorem startRoute_only (m : MapId) (k : KeyId) (n : Byte) (d : DestId) (x : Source) (s : State) :
    Only keyBlocks s (startRoute m k n d x s) := by
  unfold startRoute
  dsimp only
  split
  · exact ((routerTake_only ..).mono (by decide)).trans (modKey_key ..)
  · exact (cell_key (createCell_only ..)).trans (modKey_key ..)

theorem activateFn_only (m : MapId) (k : KeyId) (s : State) : Only keyBlocks s (activateFn m k s) := by
  unfold activateFn
  split
  · exact Only.refl _ s
  · exact (answerCall_only ..).trans (startTalk_only ..)
  · exact startTalk_only ..
  · exact (modKey_key ..).trans (only_foldl _ (fun _ _ => startTallyTalk_only ..) _ _)
  · dsimp only
    have h1 : ∀ c, Only keyBlocks s (modKey m k (fun x => { x with toggled := (toggleSub s.panel.maps[m].listen c s).2 })
        (toggleSub s.panel.maps[m].listen c s).1) :=
      fun c => ((toggleSub_only ..).mono (by decide)).trans (modKey_key ..)
    split
    · exact (h1 _).trans (modKey_key ..)
    · exact h1 _
  · split
    · exact modKey_key ..
    · exact (cell_key (sendCell_only ..)).trans (resolve_key (takeCallFor_only ..))
  · exact startRoute_only ..

theorem deactivateFn_only (m : MapId) (k : KeyId) (s : State) : Only keyBlocks s (deactivateFn m k s) := by
  unfold deactivateFn
  split
  · exact Only.refl _ s
  · exact Only.refl _ s
  · exact Only.refl _ s
  · exact (talk_key (endKeyOrigin_only ..)).trans (modKey_key ..)
  · exact (talk_key (endKeyOrigin_only ..)).trans (modKey_key ..)
  · exact (talk_key (endKeyOrigins_only ..)).trans (modKey_key ..)
  · split
    · exact Only.refl _ s
    · dsimp only
      have h1 : ∀ c, Only keyBlocks s (modKey m k (fun x => { x with toggled := none })
          (toggleSub s.panel.maps[m].listen c s).1) :=
        fun c => ((toggleSub_only ..).mono (by decide)).trans (modKey_key ..)
      split
      · exact (h1 _).trans (modKey_key ..)
      · exact h1 _

theorem setActive_only (m : MapId) (k : KeyId) (on : Bool) (s : State) : Only keyBlocks s (setActive m k on s) := by
  unfold setActive
  split
  · exact Only.refl _ s
  · dsimp only
    split
    · exact (modKey_key ..).trans (activateFn_only ..)
    · exact (modKey_key ..).trans (deactivateFn_only ..)

theorem takeEdge_only (m : MapId) (k : KeyId) (press : Bool) (s : State) : Only keyBlocks s (takeEdge m k press s) := by
  unfold takeEdge
  split
  · exact setActive_only ..
  · exact Only.ite (fun _ => setActive_only ..) fun _ => Only.refl _ s
  · split
    · unfold autoPress
      split
      · exact (modKey_key ..).trans (setActive_only ..)
      · exact (modKey_key ..).trans (setActive_only ..)
      · exact Only.refl _ s
    · unfold autoRelease
      split
      · exact modKey_key ..
      · exact (modKey_key ..).trans (setActive_only ..)
      · exact modKey_key ..
      · exact Only.refl _ s

theorem scanKey_only (m : MapId) (p : Nat) (k : KeyId) (a : State × List (KeyId × Bool)) :
    Only keyBlocks a.1 (scanKey m p k a).1 := by
  unfold scanKey
  dsimp only
  split
  · exact modKey_key ..
  · split
    · exact modKey_key ..
    · split
      · exact (modKey_key ..).trans (modKey_key ..)
      · exact (modKey_key ..).trans (takeEdge_only ..)

theorem reportKey_only (i : LineId) (m : MapId) (sc : Scan) (s : State) (e : KeyId × Bool) :
    Only cellBlocks s (reportKey i m sc s e) := Only.ite (fun _ => report_only ..) fun _ => Only.refl _ s

theorem scanKeys_only (i : LineId) (m : MapId) (sc : Scan) (s : State) : Only keyBlocks s (scanKeys i m sc s) := by
  unfold scanKeys
  dsimp only
  refine Only.trans ?_ (only_foldl _ (fun _ _ => cell_key (reportKey_only ..)) _ _)
  unfold forFin
  suffices h : ∀ (l : List KeyId) (a : State × List (KeyId × Bool)),
      Only keyBlocks a.1 (l.foldl (fun acc i => scanKey m sc.pressed i acc) a).1 from h _ (s, [])
  intro l
  induction l with
  | nil => exact fun a => Only.refl _ a.1
  | cons x l ih => exact fun a => (scanKey_only ..).trans (ih _)

theorem bindKeys_only (m : MapId) (p : Nat) (s : State) : Only [.panel] s (bindKeys m p s) :=
  only_forFin _ (fun _ _ => modKey_only ..) s

theorem reportPanel_only (i : LineId) (o : LineState) (id : Byte) (s : State) :
    Only cellBlocks s (reportPanel i o id s) := report_only ..

theorem releaseKeys_only (m : MapId) (s : State) : Only keyBlocks s (releaseKeys m s) :=
  only_forFin _ (fun _ _ => setActive_only ..) s

theorem clearKeys_only (m : MapId) (s : State) : Only [.panel] s (clearKeys m s) :=
  only_forFin _ (fun _ _ => modKey_only ..) s

theorem loseLine_only (i : LineId) (id : Byte) (s : State) : Only keyBlocks s (loseLine i id s) := by
  unfold loseLine
  dsimp only
  have h1 : Only keyBlocks s (reportPanel i s.panel.lines[i].state id (modPanelLine i toAbsent s)) :=
    ((modPanelLine_only ..).mono (by decide)).trans (cell_key (reportPanel_only ..))
  split
  · exact ((h1.trans (talk_key (endMapOrigins_only ..))).trans (releaseKeys_only ..)).trans
      ((clearKeys_only ..).mono (by decide))
  · exact h1

theorem enterLine_only (i : LineId) (sc : Scan) (s : State) : Only keyBlocks s (enterLine i sc s) := by
  unfold enterLine
  dsimp only
  have h1 : ∀ f, Only keyBlocks s (modPanelLine i f s) := fun f => (modPanelLine_only ..).mono (by decide)
  generalize (evaluateLine s.panel sc.panelId).2 = r
  cases r with
  | none =>
    dsimp only
    split
    · exact h1 _
    · exact (h1 _).trans (cell_key (reportPanel_only ..))
  | some m =>
    dsimp only
    split
    · exact (h1 _).trans ((bindKeys_only ..).mono (by decide))
    · exact ((h1 _).trans ((bindKeys_only ..).mono (by decide))).trans (cell_key (reportPanel_only ..))

theorem handKnob_only (i : LineId) (k : Byte) (s : State) : Only [.mix] s (handKnob i k s) := by
  unfold handKnob
  split
  · exact setKnob_only ..
  · exact Only.refl _ s

theorem answerLamps_only (i : LineId) (s : State) : Only [.panel] s (answerLamps i s) := modPanelLine_only ..

theorem takeScan_only (i : LineId) (bs : List Byte) (s : State) : Only keyBlocks s (takeScan i bs s) := by
  have hp : ∀ (s : State) f, Only keyBlocks s (modPanelLine i f s) := fun s f => (modPanelLine_only ..).mono (by decide)
  have hk : ∀ (s : State) k, Only keyBlocks s (handKnob i k s) := fun s k => (handKnob_only ..).mono (by decide)
  have ha : ∀ s : State, Only keyBlocks s (answerLamps i s) := fun s => (answerLamps_only ..).mono (by decide)
  unfold takeScan
  split
  · exact hp ..
  · split
    · exact ((hp ..).trans (hk ..)).trans (ha _)
    · dsimp only
      refine Only.trans (Only.trans ?_ (hk ..)) (ha _)
      split
      · exact (hp ..).trans (scanKeys_only ..)
      · split
        · exact (loseLine_only ..).trans (enterLine_only ..)
        · exact enterLine_only ..

theorem timeoutLine_only (i : LineId) (s : State) : Only keyBlocks s (timeoutLine i s) :=
  Only.ite (fun _ => loseLine_only ..) fun _ => Only.refl _ s

theorem keySwitchPoint_only (s : State) : Only [.panel] s (keySwitchPoint s) := modPanel_only ..

theorem reresolveKey_only (m : MapId) (k : KeyId) (b : BusId) (cap : Nat) (s : State) :
    Only keyBlocks s (reresolveKey m k b cap s) :=
  ((only_foldl _ (fun _ _ => endTallyTalk_only ..) _ _).trans (modKey_key ..)).trans
    (only_foldl _ (fun _ _ => startTallyTalk_only ..) _ _)

theorem announceToKey_only (b : BusId) (m : MapId) (k : KeyId) (s : State) :
    Only keyBlocks s (announceToKey b m k s) := by
  unfold announceToKey
  split
  · exact Only.ite (fun _ => reresolveKey_only ..) fun _ => Only.refl _ s
  · exact Only.refl _ s

theorem announceBus_only (s : State) (b : BusId) : Only keyBlocks s (announceBus s b) :=
  only_forFin _ (fun _ s => only_forFin _ (fun _ _ => announceToKey_only ..) s) s

theorem takeReply_only (src tag : Byte) (m : ReplyMsg) (s : State) : Only [.panel] s (takeReply src tag m s) := by
  unfold takeReply
  split
  · exact Only.refl _ s
  · exact modPanel_only ..

theorem unbindMap_only (m : MapId) (s : State) : Only keyBlocks s (unbindMap m s) := by
  unfold unbindMap
  split
  · exact Only.refl _ s
  · exact loseLine_only ..

theorem unbindForMap_only (m : MapId) (o n : KeyMap) (s : State) : Only keyBlocks s (unbindForMap m o n s) := by
  unfold unbindForMap
  dsimp only
  have h1 : ∀ p : Prop, ∀ [Decidable p], Only keyBlocks s (if p then unbindMap m s else s) :=
    fun p _ => Only.ite (fun _ => unbindMap_only ..) fun _ => Only.refl _ s
  split
  · exact (h1 _).trans (only_forFin _ (fun _ s => Only.ite (fun _ => unbindMap_only ..) fun _ => Only.refl _ s) _)
  · exact h1 _

theorem writeKeyMap_only (i : Nat) (e : List Byte) (s : State) : Only keyBlocks s (writeKeyMap i e s).1 := by
  unfold writeKeyMap
  split
  · exact Only.refl _ s
  · split
    · exact Only.refl _ s
    · dsimp only
      exact (unbindForMap_only ..).trans ((modPanel_only ..).mono (by decide))

theorem writeKey_only (i : Nat) (e : List Byte) (s : State) : Only keyBlocks s (writeKey i e s).1 := by
  unfold writeKey
  split
  · exact Only.refl _ s
  · split
    · exact Only.refl _ s
    · dsimp only
      refine Only.trans ?_ ((modPanel_only ..).mono (by decide))
      exact Only.ite (fun _ => (setActive_only ..).trans (modKey_key ..)) fun _ => Only.refl _ s

/-! ### Switch points -/

/-- The blocks that the delivery of a switch point can change. -/
def pointBlocks : List Block :=
  [.trunk, .cells, .router, .talk, .mix, .panel, .tally, .lamp, .mgmt, .choice]

theorem key_point {s t : State} (h : Only keyBlocks s t) : Only pointBlocks s t := h.mono (by decide)

theorem trunkSwitchPoint_only (s : State) : Only [.trunk] s (trunkSwitchPoint s) := modTrunk_only ..

theorem tallyDelivery_only (e : Epoch) (s : State) : Only keyBlocks s (tallyDelivery e s) :=
  (resolve_key (tallySwitchPoint_only ..)).trans (only_foldl _ announceBus_only _ _)

theorem abandonLoad_only (r : LoadRec) (s : State) : Only cellBlocks s (abandonLoad r s) :=
  ((modMgmt_only ..).mono (by decide)).trans (report_only ..)

theorem abandonIfDue_only (s : State) : Only cellBlocks s (abandonIfDue s) := by
  unfold abandonIfDue
  split
  · exact Only.ite (fun _ => abandonLoad_only ..) fun _ => Only.refl _ s
  · exact Only.refl _ s

theorem mgmtSwitchPoint_only (s : State) : Only cellBlocks s (mgmtSwitchPoint s) :=
  ((modMgmt_only ..).mono (by decide)).trans (abandonIfDue_only _)

/-- R36: what the delivery of a switch point can change, besides the integrity interval and the conflict mark of the
Trunk Interface, is not the Trunk Interface: see `deliver_after_trunk`. -/
theorem deliver_only (e : Epoch) (s : State) : Only pointBlocks s (deliver e s) :=
  ((((((((trunkSwitchPoint_only s).mono (by decide)).trans ((routerSwitchPoint_only e _).mono (by decide))).trans
    ((talkSwitchPoint_only _).mono (by decide))).trans ((keySwitchPoint_only _).mono (by decide))).trans
    (key_point (tallyDelivery_only e _)))).trans ((lampSwitchPoint_only e _).mono (by decide))).trans
    ((mgmtSwitchPoint_only _).mono (by decide))

/-- The Trunk Interface after a delivery is as `trunkSwitchPoint` leaves it. -/
theorem deliver_trunk (e : Epoch) (s : State) : (deliver e s).trunk = (trunkSwitchPoint s).trunk := by
  unfold deliver
  rw [(mgmtSwitchPoint_only _).keep .trunk (by decide), (lampSwitchPoint_only _ _).keep .trunk (by decide),
    (tallyDelivery_only _ _).keep .trunk (by decide), (keySwitchPoint_only _).keep .trunk (by decide),
    (talkSwitchPoint_only _).keep .trunk (by decide), (routerSwitchPoint_only _ _).keep .trunk (by decide)]

/-! ### Management -/

/-- The blocks that serving a request can change. -/
def serveBlocks : List Block := [.trunk, .cells, .router, .talk, .mix, .panel, .tally, .lamp, .mgmt]

theorem storeParam_only (p : Param) (v : Nat) (s : State) : Only [.mgmt, .talk] s (storeParam p v s) := by
  have h1 : ∀ f, Only [.mgmt, .talk] s (s.modMgmt f) := fun f => (modMgmt_only ..).mono (by decide)
  unfold storeParam
  dsimp only
  split
  · exact (h1 _).trans ((applyLease_only ..).mono (by decide))
  · exact h1 _

theorem writeNode_only (i : Nat) (e : List Byte) (s : State) : Only [.mgmt, .talk] s (writeNode i e s).1 := by
  unfold writeNode
  split
  · exact Only.refl _ s
  · unfold writeParam
    split
    · exact Only.refl _ s
    · split
      · exact Only.refl _ s
      · exact storeParam_only ..

theorem writeSched_only (i : Nat) (e : List Byte) (s : State) : Only [.cells] s (writeSched i e s).1 := by
  unfold writeSched
  split
  · unfold writeSchedLength
    split
    · exact Only.refl _ s
    · dsimp only [storeSched]; exact modCells_only s _
  · split
    · exact Only.refl _ s
    · unfold writeSchedClass
      split
      · exact Only.refl _ s
      · dsimp only [storeSched]; exact modCells_only s _

theorem writeEntry_only (t : Table) (i : Nat) (e : List Byte) (s : State) : Only keyBlocks s (writeEntry t i e s).1 := by
  unfold writeEntry
  split
  · exact Only.refl _ s
  · split
    · exact (writeRoute_only ..).mono (by decide)
    · exact (writeMix_only ..).mono (by decide)
    · exact (writeConf_only ..).mono (by decide)
    · exact writeKeyMap_only ..
    · exact writeKey_only ..
    · exact (writeCamera_only ..).mono (by decide)
    · exact (writeTallymap_only ..).mono (by decide)
    · exact (writeLine_only ..).mono (by decide)
    · exact (writeSubst_only ..).mono (by decide)
    · exact (writeGpi_only ..).mono (by decide)
    · exact (writeSched_only ..).mono (by decide)
    · exact (writeNode_only ..).mono (by decide)

theorem serveSet_only (src t : Byte) (i : Half) (e : List Byte) (s : State) : Only keyBlocks s (serveSet src t i e s).1 := by
  unfold serveSet
  split
  · exact Only.refl _ s
  · split
    · exact Only.refl _ s
    · split
      · exact Only.refl _ s
      · exact writeEntry_only ..

theorem serveLoadOpen_only (src t : Byte) (i n : Half) (s : State) : Only [.mgmt] s (serveLoadOpen src t i n s).1 := by
  unfold serveLoadOpen
  split
  · exact Only.refl _ s
  · split
    · exact Only.refl _ s
    · split
      · exact Only.refl _ s
      · split
        · exact Only.refl _ s
        · split
          · exact Only.refl _ s
          · dsimp only; exact modMgmt_only ..

theorem feedLoad_only (full : Bool) (fuel : Nat) (bs : List Byte) (r : LoadRec) (s : State) :
    Only keyBlocks s (feedLoad full fuel bs r s).1 := by
  induction fuel generalizing bs r s with
  | zero => exact Only.refl _ s
  | succ n ih =>
    unfold feedLoad
    dsimp only
    split
    · split <;> exact Only.refl _ s
    · split
      · exact Only.refl _ s
      · split
        · exact writeEntry_only ..
        · exact (writeEntry_only ..).trans (ih _ _ _)

theorem serveLoadData_only (src seg : Byte) (d : List Byte) (s : State) :
    Only keyBlocks s (serveLoadData src seg d s).1 := by
  unfold serveLoadData
  split
  · exact Only.refl _ s
  · split
    · exact Only.refl _ s
    · split
      · exact Only.refl _ s
      · split
        · dsimp only [acceptSegment, setLoad]
          exact (feedLoad_only ..).trans ((modMgmt_only ..).mono (by decide))
        · split
          · dsimp only [setLoad]; exact (modMgmt_only ..).mono (by decide)
          · exact Only.refl _ s

theorem onItem_only {bs : List Block} (items i : Nat) (f : State → State) (s : State) (h : Only bs s (f s)) :
    Only bs s (onItem items i f s) := Only.ite (fun _ => h) fun _ => Only.refl _ s

theorem clearItems_only (items : Nat) (s : State) : Only serveBlocks s (clearItems items s) := by
  unfold clearItems
  have step : ∀ (i : Nat) (f : State → State) (t : State), (∀ t, Only serveBlocks t (f t)) → Only serveBlocks s t →
      Only serveBlocks s (onItem items i f t) := fun i f t hf ht => ht.trans (onItem_only items i f t (hf t))
  refine step _ _ _ (fun t => (clearLampFaults_only t).mono (by decide)) ?_
  refine step _ _ _ (fun t => (clearClipped_only t).mono (by decide)) ?_
  refine step _ _ _ (fun t => (clearCollisions_only t).mono (by decide)) ?_
  refine step _ _ _ (fun t => (modTally_only t _).mono (by decide)) ?_
  refine step _ _ _ (fun t => (modPanel_only t _).mono (by decide)) ?_
  refine step _ _ _ (fun t => (modCells_only t _).mono (by decide)) ?_
  refine step _ _ _ (fun t => (modTrunk_only t _).mono (by decide)) ?_
  exact (modMgmt_only s _).mono (by decide)

theorem inBandReset_only (s : State) : Only serveBlocks s (inBandReset s) := by
  refine ⟨fun b hb => ?_⟩
  cases b <;> first | rfl | exact absurd (by decide) hb

theorem serve_only (src : Byte) (r : Request) (s : State) : Only serveBlocks s (serve src r s).1 := by
  unfold serve
  split
  · exact Only.refl _ s
  · exact (serveSet_only ..).mono (by decide)
  · exact (serveLoadOpen_only ..).mono (by decide)
  · exact (serveLoadData_only ..).mono (by decide)
  · exact (takeRequest_only ..).mono (by decide)
  · exact (routerProtect_only ..).mono (by decide)
  · exact (routerRelease_only ..).mono (by decide)
  · exact (routerAirlock_only ..).mono (by decide)
  · dsimp only; exact (modMgmt_only ..).mono (by decide)
  · unfold serveClear
    split
    · exact Only.refl _ s
    · exact clearItems_only ..
  · exact Only.refl _ s
  · exact Only.refl _ s
  · exact Only.refl _ s
  · unfold serveExecute
    split
    · exact inBandReset_only s
    · exact Only.refl _ s
  · exact Only.refl _ s
  · exact Only.refl _ s

theorem answer_only (src tag kind : Byte) (reply : List Byte) (s : State) :
    Only cellBlocks s (answer src tag kind reply s).1 :=
  ((modMgmt_only ..).mono (by decide)).trans (createCell_only ..)

theorem takeRequestCell_only (src tag : Byte) (r : Request) (s : State) :
    Only serveBlocks s (takeRequestCell src tag r s) := by
  have h1 : Only serveBlocks s (serveNew src tag r s) := by
    unfold serveNew
    dsimp only
    split
    · exact ((serve_only ..).trans ((answer_only ..).mono (by decide))).trans ((modTrunk_only ..).mono (by decide))
    · exact (serve_only ..).trans ((answer_only ..).mono (by decide))
  unfold takeRequestCell
  split
  · split
    · exact (sendCell_only ..).mono (by decide)
    · exact h1
  · exact h1

theorem receiveCell_only (c : Cell) (s : State) : Only serveBlocks s (receiveCell c s) := by
  have hc : ∀ f, Only serveBlocks s (s.modCells f) := fun f => (modCells_only ..).mono (by decide)
  unfold receiveCell
  split
  · unfold handCell
    dsimp only
    split
    · exact (takeTalkOn_only ..).mono (by decide)
    · exact (takeTalkOff_only ..).mono (by decide)
    · exact (takeTalkReply_only ..).mono (by decide)
    · exact (takeConfOn_only ..).mono (by decide)
    · exact (takeConfOff_only ..).mono (by decide)
    · exact (takeCall_only ..).mono (by decide)
    · exact (takeCancel_only ..).mono (by decide)
    · exact (takeTallySet_only ..).mono (by decide)
    · exact takeRequestCell_only ..
    · exact (takeReply_only ..).mono (by decide)
    · exact Only.refl _ s
  · exact hc _
  · exact hc _
  · exact hc _

end Sys2Proof.Machine
end

