-- ==== Sys2Proof/WellFormed.lean ====
section
/-! DEFINITION. Which commands a cell slot, a link or the straps can spell: the lengths and ranges that 11_formats.md
gives the operands. `exec` answers ill-formed commands too; no meaning rests on these checks. -/

namespace Sys2Proof

/-- R42: the source address of a cell is 1..62. -/
def sourceWf (src : Byte) : Bool := 1 ≤ src.toNat && src.toNat ≤ 62

/-- R208: the cell slot of a frame holds 47 bytes. -/
def frameWf (f : WireFrame) : Bool :=
  match f.body with
  | none => true
  | some b => b.cell.length == 47

/-- R209, R211: a SET entry stands in a payload of 40 bytes after kind, table and index. -/
def entryWf (entry : List Byte) : Bool := entry.length ≤ 36

/-- The operands of a command are ones its layout can carry. -/
def Instr.wf : Instr → Bool
  | .frameArrival _ f => frameWf f
  | .talkOn src _ _ | .talkOff src _ _ | .talkReply src _ _ | .confOn src _ _ | .confOff src _ _
  | .call src _ _ | .callCancel src _ _ | .tallySet src _ _ => sourceWf src
  | .reply src _ m => sourceWf src && m.fields.length ≤ 38
  | .routeWrite src _ _ e | .mixWrite src _ _ e | .confWrite src _ _ e | .keymapWrite src _ _ e
  | .keyWrite src _ _ e | .cameraWrite src _ _ e | .tallymapWrite src _ _ e | .lineWrite src _ _ e
  | .substWrite src _ _ e | .gpiWrite src _ _ e | .schedWrite src _ _ e => sourceWf src && entryWf e
  | .query src _ _ _ _ | .loadOpen src _ _ _ _ | .protect src _ _ _ | .release src _ _ | .airlock src _ _
  | .showLock src _ | .clearEventFlag src _ _ | .clearPortCounters src _ | .clearCellCounters src _
  | .clearPanelCounters src _ | .clearTallyCounters src _ | .clearCollisionFlags src _
  | .clearClippedFlags src _ | .clearLampFaults src _ | .status src _ _ | .identify src _
  | .resetPrepare src _ | .resetExecute src _ | .controllerAddressWrite src _ _ | .leaseWrite src _ _
  | .freeRunIntervalWrite src _ _ | .switchOffsetWrite src _ _ | .flashCycleWrite src _ _
  | .holdThresholdWrite src _ _ => sourceWf src
  | .loadData src _ _ data => sourceWf src && data.length ≤ 38
  | .take src _ m => sourceWf src && m.pairs.length ≤ 12
  | .unknownRequest src _ kind => sourceWf src && 14 ≤ kind.toNat
  | .pinReset _ _ | .missingFrame _ | .outputFrameSend _ | .samplePeriod _ | .referencePulse
  | .referenceLost | .scheduledSwitchPoint | .headFreeRun | .epochHoldOffEnd | .localSwitchPoint
  | .originResend _ | .leaseExpiry _ _ _ | .callExpiry _ _ | .keyWindowEnd _ _
  | .routeCountdownEnd _ _ | .loadAbandoned | .lampPeriodStart | .faultSense _ | .gpiSample _
  | .scan _ _ | .autoHoldReached _ _ | .panelTimeout _ => true

end Sys2Proof
end

