-- ==== Sys2Proof/Laws/PerInstr.lean ====
section
/-! SUPPORT. The laws that are stated command by command. F: the source address of a well-formed command that comes in
a cell is one that a cell may carry (R42). -/

namespace Sys2Proof.Laws

open Sys2Proof

/-- The source address of a command that comes in a cell. -/
def F.sourceOf : Instr → Option Byte
  | .pinReset _ _ => none
  | .frameArrival _ _ => none
  | .missingFrame _ => none
  | .outputFrameSend _ => none
  | .samplePeriod _ => none
  | .referencePulse => none
  | .referenceLost => none
  | .scheduledSwitchPoint => none
  | .headFreeRun => none
  | .epochHoldOffEnd => none
  | .localSwitchPoint => none
  | .originResend _ => none
  | .leaseExpiry _ _ _ => none
  | .callExpiry _ _ => none
  | .keyWindowEnd _ _ => none
  | .routeCountdownEnd _ _ => none
  | .loadAbandoned => none
  | .lampPeriodStart => none
  | .faultSense _ => none
  | .gpiSample _ => none
  | .scan _ _ => none
  | .autoHoldReached _ _ => none
  | .panelTimeout _ => none
  | .talkOn src _ _ => some src
  | .talkOff src _ _ => some src
  | .talkReply src _ _ => some src
  | .confOn src _ _ => some src
  | .confOff src _ _ => some src
  | .call src _ _ => some src
  | .callCancel src _ _ => some src
  | .tallySet src _ _ => some src
  | .reply src _ _ => some src
  | .query src _ _ _ _ => some src
  | .routeWrite src _ _ _ => some src
  | .mixWrite src _ _ _ => some src
  | .confWrite src _ _ _ => some src
  | .keymapWrite src _ _ _ => some src
  | .keyWrite src _ _ _ => some src
  | .cameraWrite src _ _ _ => some src
  | .tallymapWrite src _ _ _ => some src
  | .lineWrite src _ _ _ => some src
  | .substWrite src _ _ _ => some src
  | .gpiWrite src _ _ _ => some src
  | .schedWrite src _ _ _ => some src
  | .controllerAddressWrite src _ _ => some src
  | .leaseWrite src _ _ => some src
  | .freeRunIntervalWrite src _ _ => some src
  | .switchOffsetWrite src _ _ => some src
  | .flashCycleWrite src _ _ => some src
  | .holdThresholdWrite src _ _ => some src
  | .loadOpen src _ _ _ _ => some src
  | .loadData src _ _ _ => some src
  | .take src _ _ => some src
  | .protect src _ _ _ => some src
  | .release src _ _ => some src
  | .airlock src _ _ => some src
  | .showLock src _ => some src
  | .clearEventFlag src _ _ => some src
  | .clearPortCounters src _ => some src
  | .clearCellCounters src _ => some src
  | .clearPanelCounters src _ => some src
  | .clearTallyCounters src _ => some src
  | .clearCollisionFlags src _ => some src
  | .clearClippedFlags src _ => some src
  | .clearLampFaults src _ => some src
  | .status src _ _ => some src
  | .identify src _ => some src
  | .resetPrepare src _ => some src
  | .resetExecute src _ => some src
  | .unknownRequest src _ _ => some src

/-- R42: a well-formed command carries no source address outside 1..62. -/
def F.Statement (i : Instr) : Prop :=
  i.wf = true → ∀ src, F.sourceOf i = some src → 1 ≤ src.toNat ∧ src.toNat ≤ 62

theorem F.of_source {a b : Byte} (hb : some a = some b) (h : sourceWf a = true) : 1 ≤ b.toNat ∧ b.toNat ≤ 62 := by
  obtain rfl := Option.some.inj hb
  simpa [sourceWf] using h

theorem F.of_both {a b : Byte} {p : Bool} (hb : some a = some b) (h : (sourceWf a && p) = true) :
    1 ≤ b.toNat ∧ b.toNat ≤ 62 := F.of_source hb (Bool.and_eq_true_iff.mp h).1

theorem F.of_none {b : Byte} {q : Prop} (hb : (none : Option Byte) = some b) : q := nomatch hb

theorem F.pinReset (addr : BitVec 6) (head : Bool) : F.Statement (.pinReset addr head) :=
  fun _ _ hx => F.of_none hx
theorem F.frameArrival (p : Port) (f : WireFrame) : F.Statement (.frameArrival p f) :=
  fun _ _ hx => F.of_none hx
theorem F.missingFrame (p : Port) : F.Statement (.missingFrame p) :=
  fun _ _ hx => F.of_none hx
theorem F.outputFrameSend (p : Port) : F.Statement (.outputFrameSend p) :=
  fun _ _ hx => F.of_none hx
theorem F.samplePeriod (tdm : Vector Sample 32) : F.Statement (.samplePeriod tdm) :=
  fun _ _ hx => F.of_none hx
theorem F.referencePulse : F.Statement (.referencePulse) :=
  fun _ _ hx => F.of_none hx
theorem F.referenceLost : F.Statement (.referenceLost) :=
  fun _ _ hx => F.of_none hx
theorem F.scheduledSwitchPoint : F.Statement (.scheduledSwitchPoint) :=
  fun _ _ hx => F.of_none hx
theorem F.headFreeRun : F.Statement (.headFreeRun) :=
  fun _ _ hx => F.of_none hx
theorem F.epochHoldOffEnd : F.Statement (.epochHoldOffEnd) :=
  fun _ _ hx => F.of_none hx
theorem F.localSwitchPoint : F.Statement (.localSwitchPoint) :=
  fun _ _ hx => F.of_none hx
theorem F.originResend (idx : OriginId) : F.Statement (.originResend idx) :=
  fun _ _ hx => F.of_none hx
theorem F.leaseExpiry (l : ListId) (node : Byte) (idx : OriginId) : F.Statement (.leaseExpiry l node idx) :=
  fun _ _ hx => F.of_none hx
theorem F.callExpiry (target caller : PointId) : F.Statement (.callExpiry target caller) :=
  fun _ _ hx => F.of_none hx
theorem F.keyWindowEnd (map : MapId) (key : KeyId) : F.Statement (.keyWindowEnd map key) :=
  fun _ _ hx => F.of_none hx
theorem F.routeCountdownEnd (map : MapId) (key : KeyId) : F.Statement (.routeCountdownEnd map key) :=
  fun _ _ hx => F.of_none hx
theorem F.loadAbandoned : F.Statement (.loadAbandoned) :=
  fun _ _ hx => F.of_none hx
theorem F.lampPeriodStart : F.Statement (.lampPeriodStart) :=
  fun _ _ hx => F.of_none hx
theorem F.faultSense (reads : BitVec 48) : F.Statement (.faultSense reads) :=
  fun _ _ hx => F.of_none hx
theorem F.gpiSample (closed : BitVec 16) : F.Statement (.gpiSample closed) :=
  fun _ _ hx => F.of_none hx
theorem F.scan (line : LineId) (bytes : List Byte) : F.Statement (.scan line bytes) :=
  fun _ _ hx => F.of_none hx
theorem F.autoHoldReached (map : MapId) (key : KeyId) : F.Statement (.autoHoldReached map key) :=
  fun _ _ hx => F.of_none hx
theorem F.panelTimeout (line : LineId) : F.Statement (.panelTimeout line) :=
  fun _ _ hx => F.of_none hx
theorem F.talkOn (src tag : Byte) (m : TalkOnMsg) : F.Statement (.talkOn src tag m) :=
  fun h _ hx => F.of_source hx h
theorem F.talkOff (src tag : Byte) (m : TalkOffMsg) : F.Statement (.talkOff src tag m) :=
  fun h _ hx => F.of_source hx h
theorem F.talkReply (src tag : Byte) (m : TalkReplyMsg) : F.Statement (.talkReply src tag m) :=
  fun h _ hx => F.of_source hx h
theorem F.confOn (src tag : Byte) (m : ConfOnMsg) : F.Statement (.confOn src tag m) :=
  fun h _ hx => F.of_source hx h
theorem F.confOff (src tag : Byte) (m : ConfOffMsg) : F.Statement (.confOff src tag m) :=
  fun h _ hx => F.of_source hx h
theorem F.call (src tag : Byte) (m : CallMsg) : F.Statement (.call src tag m) :=
  fun h _ hx => F.of_source hx h
theorem F.callCancel (src tag : Byte) (m : CancelMsg) : F.Statement (.callCancel src tag m) :=
  fun h _ hx => F.of_source hx h
theorem F.tallySet (src tag : Byte) (m : TallySetMsg) : F.Statement (.tallySet src tag m) :=
  fun h _ hx => F.of_source hx h
theorem F.reply (src tag : Byte) (m : ReplyMsg) : F.Statement (.reply src tag m) :=
  fun h _ hx => F.of_both hx h
theorem F.query (src tag table : Byte) (start count : Half) : F.Statement (.query src tag table start count) :=
  fun h _ hx => F.of_source hx h
theorem F.routeWrite (src tag : Byte) (index : Half) (entry : List Byte) : F.Statement (.routeWrite src tag index entry) :=
  fun h _ hx => F.of_both hx h
theorem F.mixWrite (src tag : Byte) (index : Half) (entry : List Byte) : F.Statement (.mixWrite src tag index entry) :=
  fun h _ hx => F.of_both hx h
theorem F.confWrite (src tag : Byte) (index : Half) (entry : List Byte) : F.Statement (.confWrite src tag index entry) :=
  fun h _ hx => F.of_both hx h
theorem F.keymapWrite (src tag : Byte) (index : Half) (entry : List Byte) : F.Statement (.keymapWrite src tag index entry) :=
  fun h _ hx => F.of_both hx h
theorem F.keyWrite (src tag : Byte) (index : Half) (entry : List Byte) : F.Statement (.keyWrite src tag index entry) :=
  fun h _ hx => F.of_both hx h
theorem F.cameraWrite (src tag : Byte) (index : Half) (entry : List Byte) : F.Statement (.cameraWrite src tag index entry) :=
  fun h _ hx => F.of_both hx h
theorem F.tallymapWrite (src tag : Byte) (index : Half) (entry : List Byte) : F.Statement (.tallymapWrite src tag index entry) :=
  fun h _ hx => F.of_both hx h
theorem F.lineWrite (src tag : Byte) (index : Half) (entry : List Byte) : F.Statement (.lineWrite src tag index entry) :=
  fun h _ hx => F.of_both hx h
theorem F.substWrite (src tag : Byte) (index : Half) (entry : List Byte) : F.Statement (.substWrite src tag index entry) :=
  fun h _ hx => F.of_both hx h
theorem F.gpiWrite (src tag : Byte) (index : Half) (entry : List Byte) : F.Statement (.gpiWrite src tag index entry) :=
  fun h _ hx => F.of_both hx h
theorem F.schedWrite (src tag : Byte) (index : Half) (entry : List Byte) : F.Statement (.schedWrite src tag index entry) :=
  fun h _ hx => F.of_both hx h
theorem F.controllerAddressWrite (src tag : Byte) (value : Half) : F.Statement (.controllerAddressWrite src tag value) :=
  fun h _ hx => F.of_source hx h
theorem F.leaseWrite (src tag : Byte) (value : Half) : F.Statement (.leaseWrite src tag value) :=
  fun h _ hx => F.of_source hx h
theorem F.freeRunIntervalWrite (src tag : Byte) (value : Half) : F.Statement (.freeRunIntervalWrite src tag value) :=
  fun h _ hx => F.of_source hx h
theorem F.switchOffsetWrite (src tag : Byte) (value : Half) : F.Statement (.switchOffsetWrite src tag value) :=
  fun h _ hx => F.of_source hx h
theorem F.flashCycleWrite (src tag : Byte) (value : Half) : F.Statement (.flashCycleWrite src tag value) :=
  fun h _ hx => F.of_source hx h
theorem F.holdThresholdWrite (src tag : Byte) (value : Half) : F.Statement (.holdThresholdWrite src tag value) :=
  fun h _ hx => F.of_source hx h
theorem F.loadOpen (src tag table : Byte) (start count : Half) : F.Statement (.loadOpen src tag table start count) :=
  fun h _ hx => F.of_source hx h
theorem F.loadData (src tag seg : Byte) (data : List Byte) : F.Statement (.loadData src tag seg data) :=
  fun h _ hx => F.of_both hx h
theorem F.take (src tag : Byte) (m : TakeMsg) : F.Statement (.take src tag m) :=
  fun h _ hx => F.of_both hx h
theorem F.protect (src tag dest mode : Byte) : F.Statement (.protect src tag dest mode) :=
  fun h _ hx => F.of_source hx h
theorem F.release (src tag dest : Byte) : F.Statement (.release src tag dest) :=
  fun h _ hx => F.of_source hx h
theorem F.airlock (src tag dest : Byte) : F.Statement (.airlock src tag dest) :=
  fun h _ hx => F.of_source hx h
theorem F.showLock (src tag : Byte) : F.Statement (.showLock src tag) :=
  fun h _ hx => F.of_source hx h
theorem F.clearEventFlag (src tag : Byte) (event : Fin 16) : F.Statement (.clearEventFlag src tag event) :=
  fun h _ hx => F.of_source hx h
theorem F.clearPortCounters (src tag : Byte) : F.Statement (.clearPortCounters src tag) :=
  fun h _ hx => F.of_source hx h
theorem F.clearCellCounters (src tag : Byte) : F.Statement (.clearCellCounters src tag) :=
  fun h _ hx => F.of_source hx h
theorem F.clearPanelCounters (src tag : Byte) : F.Statement (.clearPanelCounters src tag) :=
  fun h _ hx => F.of_source hx h
theorem F.clearTallyCounters (src tag : Byte) : F.Statement (.clearTallyCounters src tag) :=
  fun h _ hx => F.of_source hx h
theorem F.clearCollisionFlags (src tag : Byte) : F.Statement (.clearCollisionFlags src tag) :=
  fun h _ hx => F.of_source hx h
theorem F.clearClippedFlags (src tag : Byte) : F.Statement (.clearClippedFlags src tag) :=
  fun h _ hx => F.of_source hx h
theorem F.clearLampFaults (src tag : Byte) : F.Statement (.clearLampFaults src tag) :=
  fun h _ hx => F.of_source hx h
theorem F.status (src tag page : Byte) : F.Statement (.status src tag page) :=
  fun h _ hx => F.of_source hx h
theorem F.identify (src tag : Byte) : F.Statement (.identify src tag) :=
  fun h _ hx => F.of_source hx h
theorem F.resetPrepare (src tag : Byte) : F.Statement (.resetPrepare src tag) :=
  fun h _ hx => F.of_source hx h
theorem F.resetExecute (src tag : Byte) : F.Statement (.resetExecute src tag) :=
  fun h _ hx => F.of_source hx h
theorem F.unknownRequest (src tag kind : Byte) : F.Statement (.unknownRequest src tag kind) :=
  fun h _ hx => F.of_both hx h

end Sys2Proof.Laws
end

