-- ==== Sys2Proof/Laws/Spec.lean ====
section
/-! SUPPORT. What the shared operations do, said once: iteration, sticky flags, the pool, queues, lists and
lamp lines. -/

namespace Sys2Proof.Machine

open Sys2Proof

/-! ### Iteration -/

/-- What holds at the start and is kept by each index holds after all of them. -/
theorem forFin_induct {α : Type} {n : Nat} (P : α → Prop) (f : Fin n → α → α) (h : ∀ i a, P a → P (f i a)) (a : α)
    (ha : P a) : P (forFin n f a) := by
  unfold forFin
  induction List.finRange n generalizing a with
  | nil => exact ha
  | cons i l ih => exact ih (f i a) (h i a ha)

/-- The first index at which a test holds: it holds there, and at none below. -/
theorem firstFin_spec {n : Nat} {p : Fin n → Bool} {i : Fin n} (h : firstFin p = some i) :
    p i = true ∧ ∀ j < i, p j = false := by
  unfold firstFin at h
  refine ⟨List.find?_some h, fun j hj => ?_⟩
  obtain ⟨_, as, bs, hl, ha⟩ := List.find?_eq_some_iff_append.1 h
  have hs : (as ++ i :: bs).Pairwise (· < ·) := hl ▸ List.pairwise_lt_finRange n
  have hm : j ∈ as ++ i :: bs := hl ▸ List.mem_finRange j
  rcases List.mem_append.1 hm with hm | hm
  · simpa using ha j hm
  · rcases List.mem_cons.1 hm with rfl | hm
    · exact absurd hj (lt_irrefl _)
    · have := (List.pairwise_cons.1 (List.pairwise_append.1 hs).2.1).1 j hm
      exact absurd hj (not_lt.2 this.le)

/-- No index has the test. -/
theorem firstFin_none {n : Nat} {p : Fin n → Bool} : firstFin p = none ↔ ∀ i, p i = false := by
  simp [firstFin, List.find?_eq_none]

/-! ### Sticky flags (R202, R203) -/

theorem setSticky_self (k : EventKind) (x : BitVec 16) : (setSticky k x).getLsbD (eventCode k) = true := by
  cases k <;> simp [setSticky, eventCode]

theorem setSticky_keeps (k : EventKind) (x : BitVec 16) (j : Nat) (h : x.getLsbD j = true) :
    (setSticky k x).getLsbD j = true := by
  simp [setSticky, BitVec.getLsbD_or, h]

/-- What a report, a creation or a returned buffer does to the Management Responder: flags are set, nothing is cleared. -/
def FlagsRise (s t : State) : Prop :=
  t.mgmt = { s.mgmt with sticky := t.mgmt.sticky } ∧
    ∀ j, s.mgmt.sticky.getLsbD j = true → t.mgmt.sticky.getLsbD j = true

theorem FlagsRise.refl (s : State) : FlagsRise s s := ⟨rfl, fun _ h => h⟩

theorem FlagsRise.trans {s t u : State} (h : FlagsRise s t) (g : FlagsRise t u) : FlagsRise s u := by
  refine ⟨?_, fun j hj => g.2 j (h.2 j hj)⟩
  rw [g.1, h.1]

theorem FlagsRise.of_eq {s t : State} (h : t.mgmt = s.mgmt) : FlagsRise s t := by
  refine ⟨?_, fun j hj => ?_⟩ <;> rw [h]
  exact hj

theorem FlagsRise.set (k : EventKind) (s : State) :
    FlagsRise s (s.modMgmt fun m => { m with sticky := setSticky k m.sticky }) :=
  ⟨rfl, fun j hj => setSticky_keeps k _ j hj⟩

theorem loseCell_flags (k : CellClass) (s : State) : FlagsRise s (loseCell k s) :=
  (FlagsRise.of_eq (t := s.modCells fun c => { c with loss := c.loss.mod k (satAdd · 1), exhausted := true }) rfl).trans
    (FlagsRise.set .poolExhausted _)

theorem createRaw_flags (kind : CellKind) (dest : Byte) (tag : Option Byte) (payload : List Byte) (s : State) :
    FlagsRise s (createRaw kind dest tag payload s).1 := by
  unfold createRaw
  split
  · exact .refl s
  · split
    · exact .of_eq rfl
    · split
      · exact loseCell_flags _ s
      · dsimp only
        split <;> split <;> exact .of_eq rfl

theorem bufferReturned_flags (s : State) : FlagsRise s (bufferReturned s) := by
  unfold bufferReturned
  split
  · have h : FlagsRise s ((s.modCells fun c => { c with exhausted := false }).modMgmt
        fun m => { m with sticky := setSticky .poolExhausted m.sticky }) :=
      (FlagsRise.of_eq (t := s.modCells fun c => { c with exhausted := false }) rfl).trans (.set .poolExhausted _)
    dsimp only
    split
    · exact h.trans (createRaw_flags ..)
    · exact h
  · exact .refl s

theorem createCell_flags (kind : CellKind) (dest : Byte) (tag : Option Byte) (payload : List Byte) (s : State) :
    FlagsRise s (createCell kind dest tag payload s).1 := by
  unfold createCell
  dsimp only
  split
  · exact (createRaw_flags ..).trans (bufferReturned_flags _)
  · exact createRaw_flags ..

/-- R203: a report sets its flag and clears none. -/
theorem report_flags (k : EventKind) (fields : List Byte) (s : State) :
    FlagsRise s (report k fields s) ∧ (report k fields s).mgmt.sticky.getLsbD (eventCode k) = true := by
  have h := FlagsRise.set k s
  have hk : (s.modMgmt fun m => { m with sticky := setSticky k m.sticky }).mgmt.sticky.getLsbD (eventCode k) = true :=
    setSticky_self k _
  unfold report
  dsimp only
  split
  · have g := createCell_flags .event
      (b8 (s.modMgmt fun m => { m with sticky := setSticky k m.sticky }).mgmt.params.ctrl) none
      (b8 (eventCode k) :: fields) (s.modMgmt fun m => { m with sticky := setSticky k m.sticky })
    exact ⟨h.trans g, g.2 _ hk⟩
  · exact ⟨h, hk⟩

/-! ### What a report reads -/

/-- The parts of the node that a creation and a report read and change stand alike in both states. -/
def Alike (s t : State) : Prop := s.trunk = t.trunk ∧ s.cells = t.cells ∧ s.mgmt = t.mgmt

/-- R47: a creation does alike to alike nodes, and gives the same tag. -/
theorem createRaw_alike {s t : State} (h : Alike s t) (kind : CellKind) (dest : Byte) (tag : Option Byte)
    (payload : List Byte) :
    Alike (createRaw kind dest tag payload s).1 (createRaw kind dest tag payload t).1 ∧
      (createRaw kind dest tag payload s).2 = (createRaw kind dest tag payload t).2 := by
  obtain ⟨ht, hc, hm⟩ := h
  unfold createRaw
  cases kindClass kind with
  | none => exact ⟨⟨ht, hc, hm⟩, rfl⟩
  | some k =>
    simp only [Alike, loseCell, makeCell, State.modCells, State.modMgmt, ht, hc, hm]
    split
    · exact ⟨⟨rfl, rfl, rfl⟩, rfl⟩
    · split
      · exact ⟨⟨rfl, rfl, rfl⟩, rfl⟩
      · split <;> split <;> exact ⟨⟨by simp [ht], by simp [hc], by simp [hm]⟩, rfl⟩

/-- R49: a returned buffer does alike to alike nodes. -/
theorem bufferReturned_alike {s t : State} (h : Alike s t) : Alike (bufferReturned s) (bufferReturned t) := by
  obtain ⟨ht, hc, hm⟩ := h
  unfold bufferReturned
  rw [hc]
  split
  · have g : Alike ((s.modCells fun c => { c with exhausted := false }).modMgmt
        fun m => { m with sticky := setSticky .poolExhausted m.sticky })
      ((t.modCells fun c => { c with exhausted := false }).modMgmt
        fun m => { m with sticky := setSticky .poolExhausted m.sticky }) :=
      ⟨ht, by simp [State.modCells, State.modMgmt, hc], by simp [State.modCells, State.modMgmt, hm]⟩
    dsimp only
    rw [g.2.1, g.2.2]
    split
    · exact (createRaw_alike g ..).1
    · exact g
  · exact ⟨ht, hc, hm⟩

/-- R47: a creation with its returned buffer does alike to alike nodes. -/
theorem createCell_alike {s t : State} (h : Alike s t) (kind : CellKind) (dest : Byte) (tag : Option Byte)
    (payload : List Byte) :
    Alike (createCell kind dest tag payload s).1 (createCell kind dest tag payload t).1 := by
  have g := createRaw_alike h kind dest tag payload
  unfold createCell
  dsimp only
  rw [g.2, h.1]
  split
  · exact bufferReturned_alike g.1
  · exact g.1

/-- R203: a report does alike to alike nodes: it reads the Trunk Interface, the Cell Engine and the Management Responder
alone. -/
theorem report_alike {s t : State} (h : Alike s t) (k : EventKind) (fields : List Byte) :
    Alike (report k fields s) (report k fields t) := by
  have g : Alike (s.modMgmt fun m => { m with sticky := setSticky k m.sticky })
      (t.modMgmt fun m => { m with sticky := setSticky k m.sticky }) :=
    ⟨h.1, h.2.1, by simp [State.modMgmt, h.2.2]⟩
  unfold report
  dsimp only
  rw [g.2.2]
  split
  · exact createCell_alike g ..
  · exact g

/-! ### The pool (R46 to R52) -/

/-- Queued cells and free buffers together. -/
def poolSize (c : CellEngine) : Nat := queuedCells c + c.free

theorem queuedCells_mod (b : ByClass (List QCell)) (k : CellClass) (f : List QCell → List QCell) :
    (b.mod k f).urgent.length + (b.mod k f).talk.length + (b.mod k f).reply.length + (b.mod k f).event.length +
        (b.get k).length =
      b.urgent.length + b.talk.length + b.reply.length + b.event.length + (f (b.get k)).length := by
  cases k <;> simp only [ByClass.mod, ByClass.get] <;> omega

/-- R47: a creation moves a buffer from the free list to a queue, or leaves both as they are. -/
theorem createRaw_pool (kind : CellKind) (dest : Byte) (tag : Option Byte) (payload : List Byte) (s : State) :
    poolSize (createRaw kind dest tag payload s).1.cells = poolSize s.cells := by
  unfold createRaw
  split
  · rfl
  · next k _ =>
    split
    · rfl
    · split
      · rfl
      · next _ hfree =>
        have h := queuedCells_mod s.cells.queues k (· ++ [{ cell := makeCell kind dest (tag.getD s.cells.tag) payload s
                                                            cw := inserts s.trunk .cw, ccw := inserts s.trunk .ccw
                                                            sent := false }])
        dsimp only
        split <;> split <;>
          simp only [poolSize, queuedCells, State.modCells_cells, countUndeliverable, List.length_append,
            List.length_singleton] at h ⊢ <;> omega

theorem bufferReturned_pool (s : State) : poolSize (bufferReturned s).cells = poolSize s.cells := by
  unfold bufferReturned
  split
  · dsimp only
    split
    · exact createRaw_pool ..
    · rfl
  · rfl

theorem createCell_pool (kind : CellKind) (dest : Byte) (tag : Option Byte) (payload : List Byte) (s : State) :
    poolSize (createCell kind dest tag payload s).1.cells = poolSize s.cells := by
  unfold createCell
  dsimp only
  split
  · rw [bufferReturned_pool, createRaw_pool]
  · exact createRaw_pool ..

theorem report_pool (k : EventKind) (fields : List Byte) (s : State) :
    poolSize (report k fields s).cells = poolSize s.cells := by
  unfold report
  dsimp only
  split
  · exact createCell_pool ..
  · rfl

theorem pruneKeep_length (cw ccw : Bool) (q : List QCell) : (pruneKeep cw ccw q).length ≤ q.length := by
  unfold pruneKeep
  exact (List.length_filter_le _ _).trans (List.length_map _).le

/-- R52: pruning returns the buffers of the cells it takes from the queues. -/
theorem prune_pool (cw ccw : Bool) (s : State) : poolSize (prune cw ccw s).cells = poolSize s.cells := by
  have hu := pruneKeep_length cw ccw s.cells.queues.urgent
  have ht := pruneKeep_length cw ccw s.cells.queues.talk
  have hr := pruneKeep_length cw ccw s.cells.queues.reply
  have he := pruneKeep_length cw ccw s.cells.queues.event
  unfold prune
  dsimp only
  split
  · rw [bufferReturned_pool]
    simp only [poolSize, queuedCells, State.modCells_cells, ByClass.map]
    omega
  · simp only [poolSize, queuedCells, State.modCells_cells, ByClass.map]
    omega

theorem rolesChanged_pool (old : Trunk) (s : State) : poolSize (rolesChanged old s).cells = poolSize s.cells := by
  unfold rolesChanged
  dsimp only
  split
  · exact prune_pool ..
  · rfl

/-! ### Queues (R50, R51, R52) -/

/-- R52: a cell that stays after pruning has a direction left, and none of those taken. -/
theorem mem_pruneKeep {cw ccw : Bool} {q : List QCell} {x : QCell} (h : x ∈ pruneKeep cw ccw q) :
    (x.cw = true ∨ x.ccw = true) ∧ (cw = true → x.cw = false) ∧ (ccw = true → x.ccw = false) ∧
      ∃ y ∈ q, x.cell = y.cell ∧ x.sent = y.sent ∧ (x.cw = true → y.cw = true) ∧ (x.ccw = true → y.ccw = true) := by
  simp only [pruneKeep, List.mem_filter, List.mem_map] at h
  obtain ⟨⟨y, hy, rfl⟩, hx⟩ := h
  refine ⟨?_, ?_, ?_, y, hy, rfl, rfl, ?_, ?_⟩ <;>
    simp only [dropDirs, QCell.done, Bool.not_and, Bool.not_not, Bool.or_eq_true, Bool.and_eq_true,
      Bool.not_eq_true'] at * <;> simp_all

/-- R51: what is taken is a cell of the queue with the direction outstanding, the oldest; the rest stands. -/
theorem takeOldest_spec (d : Dir) (q : List QCell) :
    match takeOldest d q with
    | none => ∀ x ∈ q, x.has d = false
    | some (c, r) => ∃ pre x post, q = pre ++ x :: post ∧ (∀ y ∈ pre, y.has d = false) ∧ x.has d = true ∧ c = x.cell ∧
        r = if (x.sentIn d).done then pre ++ post else pre ++ x.sentIn d :: post := by
  induction q with
  | nil => simp [takeOldest]
  | cons x q ih =>
    unfold takeOldest
    by_cases hx : x.has d = true
    · rw [if_pos hx]
      exact ⟨[], x, q, rfl, by simp, hx, rfl, by split <;> rfl⟩
    · rw [if_neg hx]
      have hx' : x.has d = false := by simpa using hx
      cases h : takeOldest d q with
      | none =>
        rw [h] at ih
        intro y hy
        rcases List.mem_cons.1 hy with rfl | hy
        · exact hx'
        · exact ih y hy
      | some r =>
        rw [h] at ih
        obtain ⟨pre, y, post, rfl, hpre, hy, hc, hr⟩ := ih
        refine ⟨x :: pre, y, post, rfl, ?_, hy, hc, ?_⟩
        · intro z hz
          rcases List.mem_cons.1 hz with rfl | hz
          · exact hx'
          · exact hpre z hz
        · show x :: r.2 = _
          rw [hr]
          split <;> rfl

/-! ### Talker lists and the call register (R90, R92, R97, R161) -/

theorem mem_dropTalker {node : Byte} {idx : OriginId} {l : List Talker} {t : Talker} :
    t ∈ dropTalker node idx l ↔ t ∈ l ∧ ¬(t.node = node ∧ t.origin = idx) := by
  simp only [dropTalker, isTalker, List.mem_filter]
  by_cases a : t.node = node <;> by_cases c : t.origin = idx <;> simp [a, c]

/-- A fold that keeps the first element or a later one answers an element of the list. -/
theorem fold_pick_mem {α : Type} (better : α → α → Bool) (l : List α) (b : Option α) (v : α)
    (h : l.foldl (fun best x => match best with | none => some x | some y => if better x y then some x else some y) b
      = some v) : b = some v ∨ v ∈ l := by
  induction l generalizing b with
  | nil => exact .inl h
  | cons x l ih =>
    rcases ih _ h with hb | hm
    · cases b with
      | none => exact .inr (by simp_all)
      | some y =>
        simp only at hb
        split at hb
        · exact .inr (by simp_all)
        · exact .inl hb
    · exact .inr (List.mem_cons_of_mem _ hm)

/-- R92: a displaced talker stands in the list. -/
theorem victimOf_mem {l : List Talker} {v : Talker} (h : victimOf l = some v) : v ∈ l := by
  have h' := fold_pick_mem (fun x y : Talker => decide (x.prio ≤ y.prio)) l none v (by
    rw [← h]; unfold victimOf; congr; funext best x; cases best <;> simp)
  simpa using h'

/-- R97: the talker that a full mirror gives up stands in the list. -/
theorem staleOf_mem {l : List Talker} {v : Talker} (h : staleOf l = some v) : v ∈ l := by
  have h' := fold_pick_mem (fun x y : Talker => decide (x.lease < y.lease)) l none v (by
    rw [← h]; unfold staleOf; congr; funext best x; cases best <;> simp)
  simpa using h'

/-- R161: the call that a full register gives up stands in it. -/
theorem shortestCall_mem {l : List Call} {v : Call} (h : shortestCall l = some v) : v ∈ l := by
  have h' := fold_pick_mem (fun x y : Call => decide (x.remaining < y.remaining)) l none v (by
    rw [← h]; unfold shortestCall; congr; funext best x; cases best <;> simp)
  simpa using h'

/-- A list without one talker that it holds is shorter. -/
theorem dropTalker_length {l : List Talker} {v : Talker} (h : v ∈ l) : (dropTalker v.node v.origin l).length < l.length := by
  unfold dropTalker
  refine lt_of_le_of_ne (List.length_filter_le _ _) fun e => ?_
  have := List.length_filter_eq_length_iff.1 e v h
  simp [isTalker] at this

/-- R90: a list without a talker is still sound. -/
theorem dropTalker_sound {l : List Talker} (h : ListSound l) (node : Byte) (idx : OriginId) :
    ListSound (dropTalker node idx l) :=
  ⟨(List.length_filter_le _ _).trans h.1, h.2.filter _⟩

/-- R92: a renewal keeps the length of a list and who stands where. -/
theorem renewIn_keys (t : Talker) (l : List Talker) :
    (renewIn t l).map (fun x => (x.node, x.origin)) = l.map fun x => (x.node, x.origin) := by
  unfold renewIn
  rw [List.map_map]
  refine List.map_congr_left fun x _ => ?_
  simp only [Function.comp]
  by_cases h : isTalker t.node t.origin x = true
  · rw [if_pos h]
    simp_all [isTalker]
  · rw [if_neg h]

/-! ### Lamp lines and protection requests (R72, R180, R184) -/

/-- R184: a CLEAR takes every line to OK, and what its fault allows in the present frame stands. -/
theorem clearFault_spec (x : LampLine) :
    (clearFault x).fault = .ok ∧ (clearFault x).count = 0 ∧ (clearFault x).retryOff = false ∧
      faultLetsOn (clearFault x) = faultLetsOn x := by
  simp [clearFault, faultLetsOn]

/-- R180, R181: a line that is not driven on senses nothing. -/
theorem senseFault_off {w : WireId} {s : State} (h : drivenOn s w = false) : senseFault w s = s := by
  unfold senseFault
  split
  · rfl
  · simp [h]

/-- R180: the readings of a frame are taken once. -/
theorem takeFaultReads_taken (reads : BitVec 48) {s : State} (h : s.lamp.senseDue = false) :
    takeFaultReads reads s = s := by
  simp [takeFaultReads, h]

/-- R132: only a HOLDING key whose count stands at the threshold moves. -/
theorem holdReached_spec (threshold : Nat) (x : KeyState) :
    holdReached threshold x =
      { x with auto := if x.auto = .holding ∧ threshold ≤ x.hold then .momentaryHold else x.auto } := by
  unfold holdReached
  by_cases h : x.auto = .holding ∧ threshold ≤ x.hold
  · rw [if_pos (by simpa using h), if_pos h]
  · rw [if_neg (by simpa using h), if_neg h]

/-- R72 to R75: a protection request on a destination is refused, recorded and changes no route entry, or acts by `f`; either
way its answer holds the destination's protection as it then stands. -/
theorem protectRequest_spec (again : Bool) (r : Byte) (d : DestId) (f : RouteEntry → RouteEntry) (s : State) :
    (∀ c, protectRefusal again s.router.routes[d].prot r = some c →
      protectRequest again r d f s = (recordRefusal d r s, { code := c, prot := some s.router.routes[d].prot })) ∧
    (protectRefusal again s.router.routes[d].prot r = none →
      protectRequest again r d f s =
        (modRoute d f s, { code := .ok, prot := some (f s.router.routes[d]).prot })) := by
  refine ⟨fun c h => ?_, fun h => ?_⟩
  · simp only [protectRequest, h]
    rfl
  · simp only [protectRequest, h, answerProtection]
    simp [modRoute, vmod]

/-- R72: the answer to a protection request leaves the state as the router left it. -/
@[simp] theorem protectAnswer_state (dest : Byte) (r : State × ProtectAnswer) : (protectAnswer dest r).1 = r.1 := rfl

/-! ### The status record of the lamp lines (R180, R186) -/

/-- R180: the status record holds each line's fault state. -/
@[simp] theorem lampStatus_faults (l : LampDriver) (w : WireId) : (lampStatus l).faults[w] = l.lines[w].fault := by
  simp [lampStatus, vof]

/-- R186: the status record holds the lamp that each line carries. -/
@[simp] theorem lampStatus_carried (l : LampDriver) (w : WireId) : (lampStatus l).carried[w] = carried l w := by
  simp [lampStatus, vof]

/-! ### The Talk Authority at a switch point (R96) -/

/-- Refreshing no entry does nothing. -/
theorem refreshOrigins_none (p : OriginId → Bool) (h : ∀ i, p i = false) (s : State) : refreshOrigins p s = s := by
  have hf : (fun (i : OriginId) acc => if p i then refreshOrigin i acc else acc) = fun _ acc => acc := by
    funext i acc
    simp [h i]
  unfold refreshOrigins
  rw [hf]
  exact forFin_induct (fun u => u = s) _ (fun _ _ hu => hu) s rfl

/-- An entry whose authority is elsewhere is not refreshed early. -/
theorem refreshedEarly_elsewhere (s : State) (i : OriginId)
    (h : ∀ e, s.talk.origins[i] = some e → authorityList s e.target = none) : refreshedEarly s i = false := by
  unfold refreshedEarly
  split
  · next e he => simp [h e he]
  · rfl

/-- Where no entry is served internally, the lease countdowns come first and every refresh after them. -/
theorem talkSwitchPoint_elsewhere (s : State)
    (h : ∀ (i : OriginId) (e : OriginEntry), s.talk.origins[i] = some e → authorityList s e.target = none) :
    talkSwitchPoint s = refreshOrigins (fun _ => true) (countdownLeases s.countChoice) := by
  have he : refreshedEarly s = fun _ => false := funext fun i => refreshedEarly_elsewhere s i (h i)
  unfold talkSwitchPoint
  simp only [he]
  rw [refreshOrigins_none _ (fun _ => rfl)]
  rfl

end Sys2Proof.Machine
end

