-- ==== Sys2Proof/Tests/Slice0.lean ====
section
/-! SUPPORT. Tests: ill-formed commands that WellFormed refuses, values that the spec's tables and worked examples give,
and for each statement with hypotheses a state and operands that meet them. -/

set_option Elab.async false

namespace Sys2Proof.Tests

open Sys2Proof Sys2Proof.Machine

/-! ### WellFormed smoke: one ill-formed term for each check -/

theorem test_wf_refuses_source_0 : (Instr.showLock 0 1).wf = false := by decide
theorem test_wf_refuses_source_63 : (Instr.talkOff 63 1 { kind := 0, id := 1, origin := 0 }).wf = false := by decide
theorem test_wf_refuses_long_reply :
    (Instr.reply 2 1 { kind := 0, code := 0, fields := List.replicate 39 0 }).wf = false := by decide
theorem test_wf_refuses_long_entry : (Instr.mixWrite 2 1 0 (List.replicate 37 0)).wf = false := by decide
theorem test_wf_refuses_long_segment : (Instr.loadData 2 1 0 (List.replicate 39 0)).wf = false := by decide
theorem test_wf_refuses_thirteen_pairs :
    (Instr.take 2 1 { mode := 1, epoch := 0, count := 8, pairs := List.replicate 13 (0, 0) }).wf = false := by decide
theorem test_wf_refuses_known_kind : (Instr.unknownRequest 2 1 13).wf = false := by decide
theorem test_wf_refuses_short_cell_slot :
    frameWf { kind := 0xA5, orig := 1, marker := 0, epoch := 0, check := 0,
              body := some { emptyBody with cell := [] } } = false := by decide
theorem test_wf_takes_40_byte_entry : (Instr.keyWrite 62 1 255 (List.replicate 36 0)).wf = true := by decide

/-! ### Values of the spec's tables and examples -/

/-- R207: the check of the nine bytes "123456789". -/
theorem test_crc_check_value :
    crc [0x31, 0x32, 0x33, 0x34, 0x35, 0x36, 0x37, 0x38, 0x39] = 0x29B1 := by decide +kernel

/-- R117, its table. -/
theorem test_rnd_table :
    [6144, 2047, 2048, -2048, -2049, -6144].map rnd = [2, 0, 1, 0, -1, -1] := by decide

/-- R38, its worked example at epoch 250. -/
theorem test_late_table :
    [250, 251, 121, 122, 240].map (fun t : Epoch => isLate (some 250) (.epoch t)) =
      [true, false, false, true, true] := by decide

/-- R37, the same example: the switch points 251 and 3 against targets 251 and 121. -/
theorem test_reached_table :
    reached 251 (.epoch 251) = true ∧ reached 251 (.epoch 121) = false ∧ reached 3 (.epoch 121) = false ∧
      reached 121 (.epoch 121) = true := by decide

/-- R53: the default schedule, its eight entries in use and the first beyond. -/
theorem test_default_schedule :
    (List.range 9).map (schedAt CellEngine.reset) =
      [.urgent, .talk, .urgent, .reply, .urgent, .talk, .urgent, .event, .urgent] := by decide +kernel

/-- R175: level 1 is on in 12 frames of a period. -/
theorem test_dim_on_frames :
    ((List.range 192).filter fun n => generatorOn 16 none n { drive := .dim 1, level := 1, pulse := .waiting none }).length
      = 12 := by decide +kernel

/-- R176: a window that wraps. -/
theorem test_flash_window_wraps :
    (List.range 8).map (onPhase 8 6 2) = [true, true, false, false, false, false, true, true] := by decide

/-- R106: full 1000 and dim 2000 store dim 1000; step 0 stores 1; g comes down to full. -/
theorem test_mix_clamps :
    ((readMix MixRec.reset
      [1, 0xFF, 0xFF, 0xFF, 0, 0, 0, 0, 0, 0xFF, 0xFF, 0x10, 0, 0xFF, 0xFF, 0x03, 0xE8, 0x07, 0xD0, 0, 0, 4, 0, 0, 0]).map
        fun r => (r.talkGain, r.full, r.dim, r.step, r.g)) = some (8191, 1000, 1000, 1, 1000) := by decide +kernel

/-- R59: sources out of range. -/
theorem test_sources_out_of_range :
    [0x0120, 0x0280, 0x0318, 0x0001, 0x0400].map (fun h : Half => readSource h) = [none, none, none, none, none] := by
  decide

/-! ### States -/

/-- Node 1, both inputs LOCKED, no head strap. -/
def base : State :=
  State.reset.modTrunk fun t =>
    { t with
      east := { t.east with lock := .locked, seen := true }
      west := { t.west with lock := .locked, seen := true } }

/-- The strapped head at address 5, both inputs LOCKED, closing the ring, its epoch 7. -/
def head : State :=
  (base.modTrunk fun t => { t with addr := 5, headStrap := true }).modSp fun u => { u with epoch := some 7, ref := .lost }

/-- Node 1 with only its West input LOCKED: the West output originates. -/
def pathEnd : State := base.modTrunk fun t => { t with east := { t.east with lock := .lost } }

/-- A pass-through repeater. -/
def repeater : State := State.reset.modTrunk fun t => { t with addr := 0 }

theorem base_reaches : Reaches base 2 := by unfold Reaches; decide

theorem base_fresh (tag kind : Byte) : Fresh base 2 tag kind :=
  ⟨base_reaches, fun e he => by
    have h : entryOf base.mgmt 2 = none := by decide +kernel
    rw [h] at he
    nomatch he⟩

theorem base_roomy : Roomy base := by unfold Roomy; decide

theorem base_writable (t : Table) : Writable t 2 base := ⟨.inl rfl, fun _ h => nomatch h⟩

/-- A frame of type ORIGINATED from node 9 with a good header. -/
def frame : WireFrame :=
  sealFrame { kind := 0xA5, orig := 9, marker := 0, epoch := 0, check := 0, body := some emptyBody }

/-- The same frame with the head-passed mark. -/
def passed : WireFrame :=
  sealFrame { kind := 0xA5, orig := 0x49, marker := 0, epoch := 0, check := 0, body := some emptyBody }

/-- An IDLE frame from the strapped head at address `a`. -/
def headIdle (a : Byte) : WireFrame :=
  sealFrame { kind := 0x5A, orig := 0x80 ||| a, marker := 0, epoch := 0, check := 0, body := none }

/-- A talker of node 9. -/
def talker (n : OriginId) (prio : Prio) (lease : Nat) : Talker :=
  { node := 9, origin := n, point := none, slot := 3, prio := prio, lease := lease }

/-- `base` as the home of C0 with these talkers. -/
def homeWith (l : List Talker) : State :=
  base.modTalk fun t => { t with confs := t.confs.set 0 { home := true, list := l } }

/-- `base` with a mirror of C0. -/
def mirrorWith (l : List Talker) : State :=
  base.modTalk fun t => { t with confs := t.confs.set 0 { home := false, list := l } }

/-- `base` with a running state for key 0 of map 0. -/
def keyed (x : KeyState) : State := base.modPanel fun p => { p with keys := p.keys.set 0 x }

/-- `base` with panel line 0 BOUND to map 0 for panel 4, last heard `n` frames ago. -/
def boundPanel (n : Nat) : State :=
  base.modPanel fun p =>
    { p with
      maps := p.maps.set 0 { (KeyMap.reset 0) with panelId := 4 }
      lines := p.lines.set 0
        { PanelLine.reset with state := .bound, panelId := some 4, scanNo := some 1, map := some 0, timeout := n } }

/-- A SCAN of panel 4. -/
def scanBytes (no : Byte) : List Byte :=
  [0x3C, 4, no, 1, 0, 0, 0, 128] ++ halfBytes (crc [0x3C, 4, no, 1, 0, 0, 0, 128])

/-- `base` with a load of CAMERA open for requester 2, one entry declared. -/
def loading (abandon : Nat) : State :=
  setLoad (.opened { openRecord 2 .camera 0 1 with abandon := abandon }) base

/-! ### One step -/

/-- R201: the identity record of node 1. -/
theorem test_identify_reply :
    (match exec (.identify 2 7) base with
      | .next t => t.cells.queues.reply.map fun q => (q.cell.tag, q.cell.payload)
      | _ => []) = [(7, [11, 0, 0x05, 0x2A, 0x17, 0xE8, 1, 1, 0, 0])] := by decide +kernel

/-- R68, R72: a take of an AIRLOCKED destination is refused LOCKED, names its pair and is recorded. -/
theorem test_take_airlocked :
    (match exec (.take 2 7 { mode := 1, epoch := 0, count := 1, pairs := [(3, 0x0101)] })
        (modRoute 3 (fun e => { e with prot := .airlocked }) base) with
      | .next t => (t.cells.queues.reply.map (·.cell.payload), t.router.lastRefusal.isSome, t.router.routes[(3 : DestId)].pending)
      | _ => ([], false, none)) = ([[4, 5, 0]], true, none) := by decide +kernel

/-- R31: a head of UNKNOWN epoch whose hold-off has ended starts from 0. -/
theorem test_head_starts_from_0 :
    (match exec .headFreeRun (head.modSp fun u => { u with epoch := none, freeRun := 1920, sinceReset := 1920 }) with
      | .next t => (t.sp.epoch, t.sp.freeRun)
      | _ => (none, 1)) = (some 0, 0) := by decide +kernel

/-- R181, R182: a latched line hands its lamp to the lowest spare. -/
theorem test_latch_takes_spare :
    (match exec (.faultSense 4)
        (base.modLamp fun l =>
          { l with
            gens := l.gens.set 2 { drive := .steady, level := 0, pulse := .waiting none }
            lines := l.lines.set 2 { LampLine.reset 2 with mode := .latch, autoSpare := true } }) with
      | .next t => (t.lamp.links, t.lamp.lines[(2 : WireId)].fault)
      | _ => ([], .ok)) = ([(2, 40)], .latched) := by decide +kernel

/-- `base` with lamp 3 and lamp 5 STEADY on lines of LATCH mode with auto-spare. -/
def twoLatching : State :=
  base.modLamp fun l =>
    { l with
      gens := (l.gens.set 3 { drive := .steady, level := 0, pulse := .waiting none }).set 5
        { drive := .steady, level := 0, pulse := .waiting none }
      lines := (l.lines.set 3 { LampLine.reset 3 with mode := .latch, autoSpare := true }).set 5
        { LampLine.reset 5 with mode := .latch, autoSpare := true } }

/-- R183: of two lines that latch in one frame the lower takes the lower spare; the frame has no second reading. -/
theorem test_latches_ascend :
    (match exec (.faultSense 40) twoLatching with
      | .next t => (t.lamp.links, t.lamp.senseDue)
      | _ => ([], true)) = ([(3, 40), (5, 41)], false) := by decide +kernel

/-- R180: a retrying line shows in the status record, stays on in the frame of its fault, as the worked example of 09 has it, and is off in the next;
R184: after a CLEAR it is on from the next frame. -/
theorem test_retry_and_clear_from_next_frame :
    (match exec (.faultSense 1)
        (base.modLamp fun l => { l with gens := l.gens.set 0 { drive := .steady, level := 0, pulse := .waiting none } }) with
      | .next t =>
        let u := lampFrame t
        let v := clearLampFaults u
        [decide ((lampStatus t.lamp).faults[(0 : WireId)] = .retrying), drivenOn t 0, drivenOn u 0, drivenOn v 0, drivenOn (lampFrame v) 0]
      | _ => []) = [true, true, false, false, true] := by decide +kernel

/-- R106: of two writes in a period the first clamps g, and the second leaves it there. -/
theorem test_two_mix_writes :
    let e : Byte → List Byte := fun x =>
      [1, 0xFF, 0xFF, 0xFF, 0, 0, 0, 0, 0, 0x10, 0, 0x10, 0, 0xFF, 0xFF, x, 0, 0, 0, 0, 1, 4, 0, 0, 0]
    (((readMix MixRec.reset (e 4)).bind fun r => readMix r (e 16)).map fun r => (r.full, r.g)) = some (4096, 1024) := by
  decide +kernel

/-- R126: the 1920th frame without a SCAN. -/
theorem test_panel_times_out :
    (match exec (.panelTimeout 0) (boundPanel 1920) with
      | .next t => t.panel.lines[(0 : LineId)].state
      | _ => .bound) = .absent := by decide +kernel

/-! ### Witnesses: what the statements assume can be met -/

theorem witness_RepeaterPasses : isMember repeater.trunk = false := by decide
theorem witness_PoolKept : PoolWhole base.cells ∧ SchedSound base.cells ∧ step base = .next base :=
  ⟨rfl, ⟨by decide, by decide, by decide, by decide⟩, rfl⟩
theorem witness_DirectionsKept : QueuesLive base.cells ∧ DirsWithin base := by
  refine ⟨?_, ?_⟩ <;> intro k <;> cases k <;> intro q hq <;> exact nomatch hq
theorem witness_GainsKept (m : MixId) : GainSound base.mix.recs[m] ∧ SubsSound base.mix.recs[m] := by
  simp [base, State.modTrunk, State.reset, State.pinReset, MixEngine.reset, MixRec.reset, GainSound, SubsSound]
theorem witness_ParamsSound : ParamsSound base.mgmt.params := by unfold ParamsSound; decide
theorem witness_RoutesKept : SlotsUnique base.router ∧ PendingsLawful base.router := by
  refine ⟨fun i j _ _ _ t h => ?_, fun d => ?_⟩
  · simp [base, State.modTrunk, State.reset, State.pinReset, Router.reset, RouteEntry.reset] at h
  · simp [base, State.modTrunk, State.reset, State.pinReset, Router.reset, RouteEntry.reset]
theorem witness_RegistersKept : ListsSound base.talk ∧ CallsSound base.tally ∧ LinksSound base.lamp := by
  refine ⟨fun l => ?_, ?_, ?_⟩
  · cases l <;> simp [base, State.modTrunk, State.reset, State.pinReset, TalkAuthority.reset, listOf, ListSound]
  · simp [base, State.modTrunk, State.reset, State.pinReset, CallsSound, Tally.reset]
  · simp [base, State.modTrunk, State.reset, State.pinReset, LinksSound, LampDriver.reset]
theorem witness_StrapsHeld : ∃ t, (∀ a h, Instr.identify 2 7 ≠ .pinReset a h) ∧ exec (.identify 2 7) base = .next t :=
  ⟨_, fun _ _ h => (nomatch h), rfl⟩

theorem witness_CellCreated :
    kindClass .event = some .event ∧ inserts base.trunk .cw = true ∧ inserts base.trunk .ccw = true ∧
      0 < base.cells.free ∧ inserts State.reset.trunk .cw = false ∧ inserts State.reset.trunk .ccw = false ∧
      State.reset.cells.exhausted = false := by decide
theorem witness_SlotGranted :
    SchedSound base.cells ∧ base.cells.exhausted = false ∧
      (base.cells.queues.get (schedAt base.cells ((schedIndex base.cells .cw + 0) % base.cells.schedLen))) = [] :=
  ⟨⟨by decide, by decide, by decide, by decide⟩, rfl, by decide +kernel⟩
theorem witness_SlotGranted_winner :
    let c : Cell := { kind := 10, dest := 2, src := 1, tag := 0, len := 1, payload := [0] }
    let s := base.modCells fun x =>
      { x with free := 127, queues := { x.queues with event := [{ cell := c, cw := true, ccw := true, sent := false }] } }
    schedAt s.cells ((schedIndex s.cells .cw + 7) % s.cells.schedLen) = .event ∧
      ∀ m < 7, s.cells.queues.get (schedAt s.cells ((schedIndex s.cells .cw + m) % s.cells.schedLen)) = [] := by
  decide +kernel
theorem witness_PoolReturns :
    let s := (base.modCells fun c => { c with exhausted := true }).modMgmt fun m =>
      { m with params := { m.params with ctrl := 62 } }
    s.cells.exhausted = true ∧ 0 < s.cells.free ∧ s.mgmt.params.ctrl = 62 ∧
      (BitVec.ofNat 8 s.mgmt.params.ctrl : Byte) ≠ s.trunk.addr ∧ inserts s.trunk .cw = true ∧
      base.cells.exhausted = false ∧ inserts State.reset.trunk .cw = false ∧ inserts State.reset.trunk .ccw = false := by
  decide
/-- R12, R14, R24: the situations of the table of R14: both LOCKED, East not LOCKED, none LOCKED, a closing head, a head of an
open ring, a head that has yielded. -/
theorem test_role_table :
    let row := fun t : Trunk => ([content t .east, content t .west], [inserts t .cw, inserts t .ccw], roleOf t)
    [base, pathEnd, State.reset, head, head.modTrunk (fun t => { t with mode := .opened }),
        head.modTrunk (fun t => { t with yielded := true })].map (fun s => row s.trunk) =
      [([.forwarded, .forwarded], [true, true], .member), ([.idle, .originated], [false, true], .member),
        ([.idle, .idle], [false, false], .member), ([.originated, .originated], [true, false], .headClosed),
        ([.forwarded, .forwarded], [true, true], .headOpen), ([.forwarded, .forwarded], [true, true], .headYielded)] := by
  decide +kernel
/-- R203: events at the limits of the controller address. -/
theorem test_report_limits :
    [0, 1, 62, 63].map (fun n =>
        let s := report .clipped [5] (head.modMgmt fun m => { m with params := { m.params with ctrl := n } })
        (s.mgmt.sticky, s.cells.queues.event.map fun q => (q.cell.dest, q.cell.payload))) =
      [(128, []), (128, [(1, [7, 5])]), (128, [(62, [7, 5])]), (128, [])] := by decide +kernel
theorem witness_CellsTested :
    lengthOk .talkOff 4 = true ∧ lengthOk .talkOff 5 = false ∧ (11 : Byte).toNat = 11 ∧ kindCode .event = 10 := by decide
theorem witness_EncodingsRoundTrip :
    let c : Cell := { kind := 8, dest := 1, src := 2, tag := 3, len := 40, payload := List.replicate 40 1 }
    c.payload.length ≤ 40 ∧ c.len.toNat = c.payload.length := by decide
theorem witness_CellCommandsAreCells : Reaches base 2 := base_reaches

theorem witness_ArrivalMovesLock :
    isMember base.trunk = true ∧ headerGood frame = true ∧ headerGood { frame with check := 0 } = false := by
  decide +kernel
/-- `base` with its East input in ACQUIRING after seven good headers. -/
def acquiring : State := base.modTrunk fun t => { t with east := { t.east with lock := .acquiring, goodRun := 7 } }
theorem witness_ArrivalMovesLock_lock :
    isMember acquiring.trunk = true ∧ acquiring.trunk.east.lock = .acquiring ∧ 8 ≤ acquiring.trunk.east.goodRun + 1 ∧
      headerGood frame = true := by decide +kernel
theorem witness_ArrivalMovesLock_lost :
    let s := base.modTrunk fun t => { t with east := { t.east with badRun := 3 } }
    isMember s.trunk = true ∧ s.trunk.east.lock = .locked ∧ 4 ≤ s.trunk.east.badRun + 1 ∧
      headerGood { frame with check := 0 } = false := by decide +kernel
/-- R7, R8: the frame that completes a lock is read. -/
theorem test_completing_frame_is_read :
    (match exec (.frameArrival .east frame) acquiring with
      | .next t => (t.trunk.east.lock, t.trunk.east.copy.isSome, t.trunk.west.buffer.isSome, t.mgmt.sticky)
      | _ => (.lost, false, false, 0)) = (.locked, true, true, 1) := by decide +kernel
theorem witness_FramesRead :
    isMember base.trunk = true ∧ activeHead base.trunk = false ∧ (portOf base.trunk .east).lock = .locked ∧
      headerGood frame = true ∧ frame.kind = 0xA5 ∧ frameMarker frame = none ∧ emptyBody.occupancy ≠ 1 ∧
      activeHead head.trunk = true ∧ head.trunk.mode = (if headPassed passed = true then .closed else .opened) ∧
      headFlag passed = false ∧ (readCell (List.replicate 47 0)).2 = false := by
  decide +kernel
theorem witness_FramesRead_cell :
    let c : Cell := { kind := 6, dest := 63, src := 9, tag := 0, len := 4, payload := [0, 1, 0, 2] }
    readCell (cellBytes c ++ halfBytes (crc (cellBytes c)) ++ List.replicate 36 7) = (c, true) ∧ c.src ≠ base.trunk.addr := by
  decide +kernel
theorem witness_MissingFrameCounted :
    (portOf (base.modTrunk fun t => { t with east := { t.east with idlePeriods := 2 } }).trunk .east).missed + 2 ≤ 2 := by
  decide
/-- A frame of type ORIGINATED from the strapped head at address `a`. -/
def headFrame (a : Byte) : WireFrame :=
  sealFrame { kind := 0xA5, orig := 0xC0 ||| a, marker := 0, epoch := 0, check := 0, body := some emptyBody }
theorem witness_HeadshipJudged :
    isMember head.trunk = true ∧ activeHead head.trunk = true ∧ (portOf head.trunk .west).lock = .locked ∧
      (∀ f ∈ [headIdle 4, headIdle 6, headFrame 4, headFrame 6, frame], headerGood f = true) ∧
      (∀ f ∈ [headIdle 4, headIdle 6, headFrame 4, headFrame 6], headFlag f = true) ∧
      (originator (headFrame 4)).toNat < head.trunk.addr.toNat ∧ head.trunk.addr.toNat < (originator (headFrame 6)).toNat ∧
      head.trunk.conflictReported = false ∧ head.trunk.mode ≠ (if headPassed frame = true then .closed else .opened) := by
  decide +kernel
/-- R11, R10: a frame of a lower head yields; one without the head-passed mark opens the ring, cell and all. -/
theorem test_second_head_and_open_ring :
    (match exec (.frameArrival .west (headFrame 4)) head, exec (.frameArrival .west frame) head with
      | .next t, .next u => (t.trunk.yielded, roleOf t.trunk, u.trunk.mode, u.trunk.yielded)
      | _, _ => (false, .member, .closed, true)) = (true, .headYielded, .opened, false) := by decide +kernel
theorem witness_MarkerTaken :
    isMember base.trunk = true ∧ activeHead base.trunk = false ∧ base.sp.epoch ≠ some 3 ∧
      activeHead head.trunk = true ∧ head.sp.epoch ≠ none ∧
      (head.modSp fun u => { u with epoch := none }).sp.epoch = none := by decide
theorem witness_IdleAndBadFramesSent :
    content State.reset.trunk .east = .idle ∧ (portOf State.reset.trunk .east).sent = false ∧
      content base.trunk .east = .forwarded := by decide
theorem witness_MadeFramesSent :
    content head.trunk .east = .originated ∧ (portOf head.trunk .east).sent = false ∧ head.trunk.addr.toNat ≤ 62 ∧
      (portOf base.trunk .east).buffer = none ∧ headerGood (headIdle 4) = true ∧ (headIdle 4).kind = 0x5A ∧
      inserts head.trunk .ccw = false := by decide +kernel
theorem witness_ForwardedFramesSent :
    let s := base.modTrunk fun t => { t with east := { t.east with buffer := some frame } }
    content s.trunk .east = .forwarded ∧ (portOf s.trunk .east).buffer = some frame ∧ (portOf s.trunk .east).sent = false ∧
      headerGood frame = true ∧ (bodyOf frame).occupancy = 0 := by
  decide +kernel
/-- R207 with log 20: the spare marker bits and the epoch byte of a forwarded frame without a marker leave as 0. -/
theorem test_spare_bits_leave_as_0 :
    (match exec (.outputFrameSend .east) (base.modTrunk fun t => { t with east := { t.east with
        buffer := some (sealFrame { frame with marker := 0x7F, epoch := 5 }) } }) with
      | .next t => t.trunk.east.out.map fun f => (f.marker, f.epoch, headerGood f)
      | _ => none) = some (0, 0, true) := by decide +kernel
theorem witness_SlotsInserted :
    (base.modRouter fun r => { r with insertions := r.insertions.set 31 (some (127, 5)) }).router.insertions[(31 : Fin 32)]
      = some (127, 5) := by decide +kernel
theorem witness_SlotsInserted_collision :
    slotValid (emptyBody.slots.set 127 { mark := 1, sample := 0 })[(127 : SlotId)] = true ∧
      base.router.routes[(63 : DestId)].collision = false := by decide +kernel

theorem witness_PeriodDelivers : isMember base.trunk = true := by decide
theorem witness_MixComputed :
    isMember base.trunk = true ∧ (base.mix.recs[(23 : MixId)] = base.start.recs[(23 : MixId)]) := by decide +kernel
/-- `base` with output 23 an IFB output whose programme is L31 at a listen gain of 8191. -/
def loud : State :=
  let r : MixRec := { MixRec.reset with ifb := true, prog := some (.tdm 31), listen := 8191 }
  { base with mix := { base.mix with recs := base.mix.recs.set 23 r }
              start := { base.start with recs := base.start.recs.set 23 r } }
/-- R119, R210: a result beyond the lower limit is clipped there and reported. -/
theorem test_clipped_low :
    (match exec (.samplePeriod (Vector.replicate 32 0x900000)) (loud.modMgmt fun m =>
        { m with params := { m.params with ctrl := 9 } }) with
      | .next t => (t.mix.recs[(23 : MixId)].clipped, t.cells.queues.event.map (·.cell.payload))
      | _ => (false, [])) = (true, [[7, 23, 0xFF, 0xFF, 1]]) := by decide +kernel
theorem witness_ReferenceMoved :
    activeHead head.trunk = true ∧ head.sp.pulseTaken = false ∧ head.sp.ref = .lost ∧ activeHead base.trunk = false ∧
      (2 * head.mgmt.params.interval ≤ (head.modSp fun u => { u with ref := .ok, sincePulse := 3840 }).sp.sincePulse) := by
  decide
theorem witness_SwitchPointsMade :
    let due := pathEnd.modSp fun u => { u with epoch := some 255, freeRun := 1920 }
    let listed := head.modSp fun u => { u with schedule := [3, 0] }
    (content due.trunk .west = .originated ∧ activeHead due.trunk = false ∧
      due.mgmt.params.interval ≤ due.sp.freeRun) ∧
      listed.sp.schedule = [3] ++ 0 :: [] ∧ listed.sp.made = false ∧ listed.sp.epoch ≠ none := by decide

theorem witness_TalkCountsEnd :
    let e : OriginEntry :=
      { map := 0, key := 0, sub := none, target := .point 9, point := none, slot := 0, prio := 1, state := .requested
        countdown := 0, unanswered := 2 }
    let s := base.modTalk fun t => { t with origins := t.origins.set 0 (some e) }
    (isMember s.trunk = true ∧ s.talk.origins[(0 : OriginId)] = some e ∧ authorityList s e.target = none) ∧
      (∃ x ∈ listOf (homeWith [talker 0 1 0]).talk (.conf 0), x.node = 9 ∧ x.origin = 0 ∧ x.lease = 0) := by
  decide +kernel
theorem witness_TalkCountsEnd_own :
    let e : OriginEntry :=
      { map := 0, key := 0, sub := none, target := .conf 0, point := none, slot := 0, prio := 1, state := .granted
        countdown := 1, unanswered := 0 }
    let s := (homeWith [{ talker 0 1 1 with node := 1 }]).modTalk fun t => { t with origins := t.origins.set 0 (some e) }
    s.talk.origins[(0 : OriginId)] = some e ∧ authorityList s e.target = some (.conf 0) ∧
      (∃ y ∈ listOf s.talk (.conf 0), y.node = s.trunk.addr ∧ y.origin = 0) ∧ 2 ≤ s.mgmt.params.lease ∧
      (∀ j : OriginId, j ≠ 0 → s.talk.origins[j] = none) ∧ (∀ k : Fin 256, s.panel.entries[k].fn = .none) := by
  decide +kernel
theorem witness_TalkOnTaken :
    let s := homeWith ((List.range 8).map fun n => talker (Fin.ofNat 64 n) 1 40)
    readTalkTarget 1 0 = some (.conf 0) ∧ authorityList s (.conf 0) = some (.conf 0) ∧
      (listOf s.talk (.conf 0)).length = 8 ∧ readPointOpt 0xFFFF = some none ∧ (2 : Byte) ≠ s.trunk.addr := by
  decide +kernel
theorem witness_TalkOffAndReply :
    Reaches base 2 ∧ readTalkTarget 0 1023 = some (.point 1023) ∧
      authorityList (homeWith [talker 0 1 9]) (.conf 0) = some (.conf 0) := ⟨base_reaches, by decide, by decide +kernel⟩
theorem witness_TalkOffAndReply_out_of_range :
    2 ≤ (2 : Byte).toNat ∧ 1024 ≤ (1024 : Half).toNat ∧ 64 ≤ (64 : Half).toNat ∧ 64 ≤ (64 : Byte).toNat ∧
      3 ≤ (3 : Byte).toNat := by decide
theorem witness_MirrorsFollow :
    (mirrorWith ((List.range 8).map fun n => talker (Fin.ofNat 64 n) 1 40)).talk.confs[(0 : ConfId)].home = false ∧
      (homeWith []).talk.confs[(0 : ConfId)].home = true := by decide +kernel
theorem witness_TallyInputsTaken :
    Reaches base 2 ∧ (14 : Byte).toNat < 15 ∧ base.sp.epoch = none ∧ head.sp.epoch = some 7 ∧
      isMember base.trunk = true ∧ base.tally.gpiDue = true := ⟨base_reaches, by decide, rfl, rfl, by decide, by decide⟩
theorem witness_CallsTaken :
    let s := base.modPanel fun p => { p with maps := p.maps.set 7 { (KeyMap.reset 7) with point := some 1023 } }
    CallsSound s.tally ∧ s.panel.maps[(7 : MapId)].point = some 1023 ∧ s.tally.calls.length < 16 := by
  refine ⟨?_, by decide +kernel, by decide⟩
  exact witness_RegistersKept.2.1
/-- A full register: sixteen calls of T1 by the callers 0..15, the third the shortest. -/
def fullRegister : List Call :=
  (List.range 16).map fun n => { target := 1, caller := Fin.ofNat 1024 n, remaining := if n = 2 then 1 else 9 }
theorem witness_CallsTaken_full :
    let v : Call := { target := 1, caller := 2, remaining := 1 }
    fullRegister.length = 16 ∧ fullRegister = fullRegister.take 2 ++ v :: fullRegister.drop 3 ∧
      (∀ c ∈ fullRegister.take 2, v.remaining < c.remaining) ∧ (∀ c ∈ fullRegister.drop 3, v.remaining ≤ c.remaining) ∧
      CallsSound (modCalls (fun _ => fullRegister) base).tally := by
  refine ⟨by decide +kernel, by decide +kernel, by decide +kernel, by decide +kernel, ?_⟩
  unfold CallsSound
  decide +kernel
theorem witness_CallCancelled :
    let s := modCalls (fun _ => [{ target := 1, caller := 2, remaining := 3 }]) base
    ∃ c ∈ s.tally.calls, (c.target == 1 && c.caller == 2) = true := by decide
theorem witness_LampsShown :
    isMember base.trunk = true ∧ base.lamp.periodDue = true ∧ base.lamp.links = [] ∧
      base.lamp.lines[(39 : WireId)].role = .normal := by decide +kernel
theorem witness_FaultsSensed :
    let s := base.modLamp fun l =>
      { l with
        gens := l.gens.set 39 { drive := .steady, level := 0, pulse := .waiting none }
        lines := l.lines.set 39 { LampLine.reset 39 with count := 7, autoSpare := true } }
    isMember s.trunk = true ∧ s.lamp.senseDue = true ∧ carried s.lamp 39 = some 39 ∧ drivenOn s 39 = true ∧
      s.lamp.lines[(40 : WireId)].role = .spare ∧ s.lamp.links = [] := by decide +kernel

/-- The last count below the eighth, in RETRY mode. -/
theorem witness_FaultsSensed_retry :
    let s := base.modLamp fun l =>
      { l with
        gens := l.gens.set 39 { drive := .steady, level := 0, pulse := .waiting none }
        lines := l.lines.set 39 { LampLine.reset 39 with count := 6 } }
    carried s.lamp 39 = some 39 ∧ drivenOn s 39 = true ∧
      ¬(s.lamp.lines[(39 : WireId)].mode = .latch ∨ 8 ≤ s.lamp.lines[(39 : WireId)].count + 1) := by decide +kernel
theorem witness_FaultsSensed_empty : carried base.lamp 47 = none := by decide +kernel
/-- `base` with lamp 39 STEADY on its line at its seventh fault, with auto-spare; these links, and the spares LATCHED or OK. -/
def failing (links : List (LampId × WireId)) (f : FaultState) : State :=
  base.modLamp fun l =>
    { l with
      gens := l.gens.set 39 { drive := .steady, level := 0, pulse := .waiting none }
      links := links
      lines := (vof 48 fun w => { LampLine.reset w with fault := f, role := if 31 ≤ w.val then .spare else .normal }).set 39
        { LampLine.reset 39 with count := 7, autoSpare := true } }
theorem witness_FaultsSensed_reasons :
    let full : List (LampId × WireId) := (List.range 8).map fun n => (Fin.ofNat 40 n, Fin.ofNat 48 (40 + n))
    carried (failing [] .latched).lamp 39 = some 39 ∧ drivenOn (failing [] .latched) 39 = true ∧
      (∀ v : WireId, v ≠ 39 → (failing [] .latched).lamp.lines[v].fault = .latched) ∧
      carried (failing full .ok).lamp 39 = some 39 ∧ drivenOn (failing full .ok) 39 = true ∧ full.length = 8 ∧
      (failing full .ok).lamp.lines[(31 : WireId)].role = .spare := by decide +kernel
theorem witness_KeyCountsEnd :
    (keyed { KeyState.reset with window := some 0 }).panel.keys[keyIx 0 0].window = some 0 ∧
      (keyed { KeyState.reset with route := .awaiting 2 (some 7) 0 }).panel.keys[keyIx 0 0].route =
        .awaiting 2 (some 7) 0 ∧
      (keyed { KeyState.reset with auto := .holding, hold := 60 }).mgmt.params.hold ≤ 60 := by decide +kernel
theorem witness_KeysConditioned :
    (keyState (keyed { KeyState.reset with run := 2 }) 0 0).run + 1 = 3 ∧
      (keyEntry (keyed { KeyState.reset with run := 2 }) 0 0).debounce < 3 := by decide +kernel
/-- `base` with this function on key 0 of map 0. -/
def keyedFn (f : KeyFn) : State :=
  base.modPanel fun p => { p with entries := p.entries.set 0 { KeyEntry.reset with fn := f } }
theorem witness_KeyFunctionsAct :
    (keyState (keyedFn (.talkPoint 3)) 0 0).active = false ∧ (keyEntry (keyedFn (.talkPoint 3)) 0 0).fn = .talkPoint 3 ∧
      (keyEntry (keyedFn (.listenConf 2)) 0 0).fn = .listenConf 2 ∧
      base.mix.recs[base.panel.maps[(0 : MapId)].listen].subs.length < 4 ∧
      (keyState (keyed { KeyState.reset with active := true, toggled := some .added }) 0 0).active = true ∧
      base.talk.origins[(0 : OriginId)] = none ∧ authorityList base (.point 3) = none := by decide +kernel
/-- `base` with bus 1 on air from source 7, which camera shows point 3, and an active key 0 of map 0 that follows it and
was resolved to point 4. -/
def following : State :=
  (((keyedFn (.talkTally 1 4)).modPanel fun p => { p with
    keys := p.keys.set 0 { KeyState.reset with active := true, resolved := [4] } }).modTally fun t => { t with
      buses := t.buses.set 1 { active := 128, pending := none }, camera := t.camera.set 7 (some 3) })
theorem witness_BusesAnnounced :
    (keyEntry following 0 0).fn = .talkTally 1 4 ∧ (keyState following 0 0).active = true ∧
      resolvePoints following.tally 1 4 = [3] ∧ (keyState following 0 0).resolved = [4] ∧
      (∀ o : OriginId, following.talk.origins[o] = none) := by decide +kernel
theorem witness_BoundLinesScanned :
    let s := boundPanel 7
    readScan (scanBytes 9) = some { panelId := 4, scanNo := 9, pressed := 1, knob := 128 } ∧
      s.panel.lines[(0 : LineId)].state = .bound ∧ s.panel.lines[(0 : LineId)].map = some 0 ∧
      s.panel.lines[(0 : LineId)].scanNo ≠ some 9 ∧ s.panel.maps[(0 : MapId)].panelId = 4 := by decide +kernel
theorem witness_KeyLampsComposed :
    (boundPanel 0).panel.lines[(0 : LineId)].state = .bound ∧ (boundPanel 0).panel.lines[(0 : LineId)].map = some 0 := by
  decide +kernel
theorem witness_ScansTaken :
    readScan (scanBytes 1) = some { panelId := 4, scanNo := 1, pressed := 1, knob := 128 } ∧ readScan [] = none ∧
      (boundPanel 0).panel.lines[(0 : LineId)].scanNo = some 1 ∧ (boundPanel 0).panel.lines[(1 : LineId)].state = .absent ∧
      (boundPanel 0).panel.maps[(0 : MapId)].panelId = 4 := by decide +kernel
/-- R124: the same SCAN on a line 1 that is ABSENT, with the map free and with it bound to line 0. -/
theorem witness_ScansTaken_unbound :
    let s := (boundPanel 0).modPanel fun p => { p with lines := p.lines.set 0 PanelLine.reset }
    s.panel.maps[(0 : MapId)].panelId = 4 ∧ (∀ j : LineId, s.panel.lines[j].state ≠ .bound) ∧
      (boundPanel 0).panel.lines[(1 : LineId)].state ≠ .bound ∧
      (∀ m : MapId, (base.panel.maps[m].panelId : Byte) ≠ 4) := by decide +kernel
theorem witness_PanelTimedOut :
    (boundPanel 1920).panel.lines[(0 : LineId)].state = .bound ∧
      1920 ≤ (boundPanel 1920).panel.lines[(0 : LineId)].timeout := by decide +kernel

theorem witness_RequestsAnswered :
    Fresh base 2 0 11 ∧ 0 < base.cells.free ∧ inserts base.trunk .cw = true ∧
      (writeRequester 2 { kind := 11, tag := 7, reply := [0], count := 0 } base).mgmt.requesters[(2 : Fin 64)] =
        some { kind := 11, tag := 7, reply := [0], count := 0 } :=
  ⟨base_fresh 0 11, by decide, by decide, by decide +kernel⟩
theorem witness_ReadRequests : Fresh base 2 0 14 ∧ Fresh base 2 0 10 ∧ viewOf 16 = some .counters :=
  ⟨base_fresh 0 14, base_fresh 0 10, by decide⟩
theorem witness_EntriesWritten :
    Fresh base 2 0 1 ∧ Writable .route 2 base ∧ base.lamp.lines[(47 : WireId)].role = .spare ∧
      base.lamp.lines[(39 : WireId)].role = .normal :=
  ⟨base_fresh 0 1, base_writable .route, by decide +kernel, by decide +kernel⟩
theorem witness_EntriesWritten_refused :
    Writable .gpi 2 base ∧ 128 ≤ (byteAt (0x80 :: List.replicate 10 0) 0).toNat ∧ (1024 : Half) ≠ 0xFFFF ∧
      2 ≤ (byteAt [0, 0, 2, 0, 0] 2).toNat ∧ (48 : Byte) ≠ 0xFF ∧ 16 ≤ (byteAt [1, 1, 16, 1, 0] 2).toNat :=
  ⟨base_writable .gpi, by decide, by decide, by decide, by decide, by decide⟩
/-- Panel 4 on line 0 BOUND to map 1, and map 0 not yet of its id. -/
def boundHigher : State :=
  base.modPanel fun p =>
    { p with
      maps := p.maps.set 1 { (KeyMap.reset 1) with panelId := 4 }
      lines := p.lines.set 0 { PanelLine.reset with state := .bound, panelId := some 4, scanNo := some 1, map := some 1 } }
theorem witness_RunningEntriesWritten_lines :
    (boundPanel 0).panel.maps[(0 : MapId)].listen ≠ (23 : MixId) ∧ (boundPanel 0).panel.lines[(0 : LineId)].state = .bound ∧
      boundHigher.panel.lines[(0 : LineId)].map = some 1 ∧ boundHigher.panel.maps[(0 : MapId)].panelId ≠ 4 ∧
      boundHigher.panel.maps[(1 : MapId)].panelId = 4 := by decide +kernel
/-- R128: a lower map that takes a bound panel's id takes its line. -/
theorem test_lower_map_takes_line :
    (match exec (.keymapWrite 2 0 0 [4, 0, 0, 0xFF, 0xFF, 1]) boundHigher with
      | .next t => (t.panel.lines[(0 : LineId)].state, t.panel.lines[(0 : LineId)].map, t.panel.maps[(0 : MapId)].panelId)
      | _ => (.bound, none, 0)) = (.absent, none, 4) := by decide +kernel
/-- R157: a DIM level and a FLASH window stored with their clamps, a STEADY term beside them. -/
theorem test_tallymap_clamps :
    ((readTallyRec ([3, 0xFF, 0xFF] ++ [0, 1, 0x81, 0, 9] ++ [15, 2, 2, 33, 255] ++ [1, 3, 0, 7, 7] ++ [0, 0, 0, 0, 0])).map
      fun r => r.terms.map fun x => (x.drive, x.air)) = some [(.dim 1, true), (.flash 32 32, false), (.steady, false)] := by
  decide +kernel
theorem witness_RunningEntriesWritten_refused :
    Writable .key 2 base ∧ 5 ≤ (byteAt [0, 0, 0, 0, 5] 4).toNat ∧ 33 ≤ (33 : Byte).toNat ∧
      (∀ y : Source, (0x0120 : Half) ≠ halfAt (sourceBytes y) 0) ∧ 16 ≤ (byteAt [1, 0, 0, 16] (3 + 5 * 0)).toNat := by
  refine ⟨base_writable .key, by decide, by decide, fun y => ?_, by decide⟩
  cases y with
  | silence => decide
  | tdm n => revert n; decide +kernel
  | slot n => revert n; decide +kernel
  | mix n => revert n; decide +kernel
theorem witness_RunningEntriesWritten :
    Fresh base 2 0 1 ∧ Writable .tallymap 2 base ∧ readKeyEntry (keyEntryBytes KeyEntry.reset) = some KeyEntry.reset ∧
      (boundPanel 0).panel.lines[(0 : LineId)].map = some 0 :=
  ⟨base_fresh 0 1, base_writable .tallymap, by decide +kernel, by decide +kernel⟩
/-- Panel 4 BOUND to map 0, whose key 0 is active as a LISTEN_CONF key that has added C2. -/
def listening : State :=
  let s := (boundPanel 0).modPanel fun p => { p with
    entries := p.entries.set 0 { KeyEntry.reset with fn := .listenConf 2 }
    keys := p.keys.set 0 { KeyState.reset with active := true, toggled := some .added } }
  modRec 0 (fun r => { r with subs := [2, 5] }) s
theorem witness_RunningEntriesWritten_active :
    (keyState listening 0 0).active = true ∧ listening.panel.lines[(0 : LineId)].map = some 0 ∧
      listening.panel.lines[(0 : LineId)].state = .bound := by decide +kernel
/-- R129, step 1: a write to an active key of a bound map ends its function: C2 leaves the subscriptions. -/
theorem test_key_write_ends_function :
    (match exec (.keyWrite 2 7 0 (keyEntryBytes KeyEntry.reset)) listening with
      | .next t => (t.mix.recs[(0 : MixId)].subs, (keyState t 0 0).active)
      | _ => ([], true)) = ([5], false) := by decide +kernel
theorem witness_WritesJudged :
    Fresh base 2 0 1 ∧ Writable .node 2 base ∧ tableSize .node ≤ (6 : Half).toNat ∧ base.mgmt.params.lease ≠ 8 :=
  ⟨base_fresh 0 1, base_writable .node, by decide, by decide⟩
theorem witness_LoadsServed :
    Fresh base 2 0 2 ∧ Fresh base 2 0 3 ∧
      (∃ r, (loading 64).mgmt.load = .opened r ∧ 64 ≤ r.abandon ∧ r.declared = some (r.judged + 1) ∧
        r.part.length + [(0 : Byte), 1].length = entrySize r.table) :=
  ⟨base_fresh 0 2, base_fresh 0 3, _, rfl, by decide, by decide, by decide⟩
theorem witness_SegmentsFed :
    let r : LoadRec := { openRecord 2 .camera 254 0 with part := [0] }
    let s := setLoad (.opened r) base
    Fresh s 2 0 3 ∧ s.mgmt.load = .opened r ∧ s.mgmt.showLock = false ∧ r.nextSeg = 0 ∧ r.declared = none ∧
      entrySize r.table = 2 ∧ r.part ++ [1, 0, 2, 0, 3] = [[0, 1], [0, 2]].flatten ++ [0, 3] ∧
      2 ≤ ([0, 3] : List Byte).length ∧ r.nextIndex + [[0, 1], [0, 2]].length = tableSize r.table :=
  ⟨base_fresh 0 3, rfl, rfl, rfl, rfl, rfl, rfl, by decide, by decide⟩
theorem witness_TakesServed :
    Fresh base 2 0 4 ∧ readSource 0x0101 = some (.tdm 1) ∧ base.router.routes[(63 : DestId)].prot = .free ∧
      readTarget 0 5 = some (.epoch 5) := ⟨base_fresh 0 4, by decide, by decide +kernel, by decide⟩
theorem witness_ProtectionServed :
    Fresh base 2 0 5 ∧ Fresh base 2 0 6 ∧ Fresh base 2 0 7 ∧ base.router.routes[(63 : DestId)].prot = .free :=
  ⟨base_fresh 0 5, base_fresh 0 6, base_fresh 0 7, by decide +kernel⟩
/-- R211, R73: a refused PROTECT (mode 2) answers INVALID and nothing more; an accepted one its destination, PROTECTED. -/
theorem test_protect_answers :
    (protectAnswer 63 (routerProtect 2 63 2 base)).2 = { code := .invalid, fields := [] } ∧
      (protectAnswer 63 (routerProtect 2 63 0 base)).2 = { code := .ok, fields := [63, 1] } := by decide +kernel
/-- R72, R73, R211: a PROTECT by another than the owner is refused PROTECTED: the router answers the protection, which stands,
and the reply carries the code alone. -/
theorem test_protect_refused :
    let s := modRoute 63 (fun e => { e with prot := .lockedBy 3 }) base
    (routerProtect 2 63 0 s).2 = { code := .protectedBy, prot := some (.lockedBy 3) } ∧
      (protectAnswer 63 (routerProtect 2 63 0 s)).2 = { code := .protectedBy, fields := [] } := by decide +kernel
theorem witness_ItemsCleared : Fresh base 2 0 9 := base_fresh 0 9
theorem witness_ResetsServed :
    Fresh base 2 0 8 ∧ Fresh base 2 0 12 ∧ Fresh base 2 0 13 ∧
      prepared (entryOf (writeRequester 2 { kind := 12, tag := 7, reply := [0], count := 1 } base).mgmt 2) = true :=
  ⟨base_fresh 0 8, base_fresh 0 12, base_fresh 0 13, by decide +kernel⟩

end Sys2Proof.Tests
end

section
/-! SUPPORT. What the operations of a command leave of the straps, the headship, the epoch and the inputs; and that no
command but PIN_RESET moves the straps (O11). -/

namespace Sys2Proof.Machine

open Sys2Proof

/-! ### What stands of the Trunk Interface and the epoch -/

/-- What R7 keeps of an input: its lock, its runs and what tells a missing frame (R6). -/
structure InputKept (x y : PortState) : Prop where
  lock : y.lock = x.lock
  goodRun : y.goodRun = x.goodRun
  badRun : y.badRun = x.badRun
  seen : y.seen = x.seen
  idlePeriods : y.idlePeriods = x.idlePeriods
  missed : y.missed = x.missed

theorem InputKept.refl (x : PortState) : InputKept x x := ⟨rfl, rfl, rfl, rfl, rfl, rfl⟩

theorem InputKept.trans {x y z : PortState} (h : InputKept x y) (g : InputKept y z) : InputKept x z :=
  ⟨g.lock.trans h.lock, g.goodRun.trans h.goodRun, g.badRun.trans h.badRun, g.seen.trans h.seen,
    g.idlePeriods.trans h.idlePeriods, g.missed.trans h.missed⟩

/-- R1, R11, R27: the straps stand, a yielded headship is not given back, a known epoch stays known. -/
structure Held (s t : State) : Prop where
  addr : t.trunk.addr = s.trunk.addr
  headStrap : t.trunk.headStrap = s.trunk.headStrap
  yielded : s.trunk.yielded = true → t.trunk.yielded = true
  epoch : s.sp.epoch.isSome = true → t.sp.epoch.isSome = true

theorem Held.refl (s : State) : Held s s := ⟨rfl, rfl, id, id⟩

theorem Held.trans {s t u : State} (h : Held s t) (g : Held t u) : Held s u :=
  ⟨g.addr.trans h.addr, g.headStrap.trans h.headStrap, g.yielded ∘ h.yielded, g.epoch ∘ h.epoch⟩

/-- R1: a node whose straps stand is a ring member as before. -/
theorem Held.member {s t : State} (h : Held s t) : isMember t.trunk = isMember s.trunk := by
  simp [isMember, h.addr]

/-- The straps, the headship and the epoch are held, and no input is moved. -/
structure Steady (s t : State) : Prop extends Held s t where
  input : ∀ p, InputKept (portOf s.trunk p) (portOf t.trunk p)

theorem Steady.refl (s : State) : Steady s s := ⟨.refl s, fun _ => .refl _⟩

theorem Steady.trans {s t u : State} (h : Steady s t) (g : Steady t u) : Steady s u :=
  ⟨h.toHeld.trans g.toHeld, fun p => (h.input p).trans (g.input p)⟩

theorem Steady.ite {s t u : State} {p : Prop} [Decidable p] (h : p → Steady s t) (g : ¬p → Steady s u) :
    Steady s (if p then t else u) := by
  split
  · exact h ‹_›
  · exact g ‹_›

/-- What changes neither the Trunk Interface nor the Switch Point Unit is steady. -/
theorem Only.steady {bs : List Block} {s t : State} (h : Only bs s t) (ht : Block.trunk ∉ bs := by decide)
    (hp : Block.sp ∉ bs := by decide) : Steady s t := by
  have h1 : t.trunk = s.trunk := h.keep .trunk ht
  have h2 : t.sp = s.sp := h.keep .sp hp
  exact ⟨⟨by rw [h1], by rw [h1], by rw [h1]; exact id, by rw [h2]; exact id⟩, fun p => by rw [h1]; exact .refl _⟩

/-- A port changed in what is no part of its input. -/
theorem modPort_steady (s : State) (p : Port) (f : PortState → PortState) (h : ∀ x, InputKept x (f x)) :
    Steady s (s.modTrunk (modPort p f)) := by
  refine ⟨⟨modPort_addr .., modPort_headStrap .., fun hy => (modPort_yielded p f s.trunk).trans hy, id⟩, fun q => ?_⟩
  cases p with
  | east => cases q with
    | east => exact h _
    | west => exact .refl _
  | west => cases q with
    | east => exact .refl _
    | west => exact h _

/-- Both ports changed, in what is no part of their inputs. -/
theorem modPorts_steady (s : State) (f : Trunk → Trunk) (ha : (f s.trunk).addr = s.trunk.addr)
    (hh : (f s.trunk).headStrap = s.trunk.headStrap) (hy : s.trunk.yielded = true → (f s.trunk).yielded = true)
    (he : InputKept s.trunk.east (f s.trunk).east) (hw : InputKept s.trunk.west (f s.trunk).west) :
    Steady s (s.modTrunk f) :=
  ⟨⟨ha, hh, hy, id⟩, fun p => by cases p <;> assumption⟩

/-- The Switch Point Unit changed, a known epoch staying known. -/
theorem modSp_steady (s : State) (f : SwitchUnit → SwitchUnit)
    (h : s.sp.epoch.isSome = true → (f s.sp).epoch.isSome = true) : Steady s (s.modSp f) :=
  ⟨⟨rfl, rfl, id, h⟩, fun _ => .refl _⟩

/-! ### Roles and headship -/

/-- R12: a discarded buffer is all that `dropBuffer` changes. -/
theorem dropBuffer_eq (old : Trunk) (p : Port) (t : Trunk) :
    dropBuffer old p t = modPort p (fun x =>
      if content old p == .forwarded && content t p != .forwarded then { x with buffer := none } else x) t := by
  unfold dropBuffer
  split <;> cases p <;> simp_all [modPort]

theorem dropBuffer_steady (old : Trunk) (p : Port) (s : State) : Steady s (s.modTrunk (dropBuffer old p)) := by
  have h : s.modTrunk (dropBuffer old p) = s.modTrunk (modPort p fun x =>
      if content old p == .forwarded && content s.trunk p != .forwarded then { x with buffer := none } else x) := by
    simp only [State.modTrunk, dropBuffer_eq]
  rw [h]
  refine modPort_steady s p _ fun x => ?_
  split <;> exact ⟨rfl, rfl, rfl, rfl, rfl, rfl⟩

theorem rolesChanged_steady (old : Trunk) (s : State) : Steady s (rolesChanged old s) := by
  have h : Steady s (s.modTrunk fun t => dropBuffer old .west (dropBuffer old .east t)) :=
    (dropBuffer_steady old .east s).trans (dropBuffer_steady old .west _)
  unfold rolesChanged
  dsimp only
  split
  · exact h.trans (prune_only ..).steady
  · exact h

theorem reportLinkChange_steady (p : Option Port) (s : State) : Steady s (reportLinkChange p s) :=
  (reportLinkChange_only p s).steady

theorem lockMoved_steady (old : Trunk) (p : Port) (s : State) : Steady s (lockMoved old p s) :=
  Steady.ite (fun _ => .refl s) fun _ => (rolesChanged_steady old s).trans (reportLinkChange_steady ..)

theorem reportConflict_only (rival : Byte) (s : State) : Only cellBlocks s (reportConflict rival s) := report_only ..

theorem yieldHead_steady (s : State) : Steady s (yieldHead s) := by
  refine Steady.trans (Steady.trans ?_ (modSp_steady _ _ id)) (rolesChanged_steady ..)
  exact modPorts_steady s _ rfl rfl (fun _ => rfl) (.refl _) (.refl _)

theorem judgeConflict_steady (f : WireFrame) (s : State) : Steady s (judgeConflict f s) := by
  unfold judgeConflict
  dsimp only
  split
  · split
    · exact (yieldHead_steady s).trans (reportConflict_only ..).steady
    · split
      · exact .refl s
      · refine Steady.trans ?_ (reportConflict_only ..).steady
        exact modPorts_steady s _ rfl rfl id (.refl _) (.refl _)
  · exact .refl s

theorem judgeMode_steady (f : WireFrame) (s : State) : Steady s (judgeMode f s) := by
  refine Steady.ite (fun _ => ?_) fun _ => .refl s
  refine Steady.trans (Steady.trans ?_ (rolesChanged_steady ..)) (reportLinkChange_steady ..)
  exact modPorts_steady s _ rfl rfl id (.refl _) (.refl _)

/-! ### Switch points -/

theorem deliver_steady (e : Epoch) (s : State) : Steady s (deliver e s) := by
  have h1 : Steady s (trunkSwitchPoint s) :=
    modPorts_steady s _ rfl rfl id ⟨rfl, rfl, rfl, rfl, rfl, rfl⟩ ⟨rfl, rfl, rfl, rfl, rfl, rfl⟩
  unfold deliver
  exact ((((((h1.trans (routerSwitchPoint_only ..).steady).trans (talkSwitchPoint_only _).steady).trans
    (keySwitchPoint_only _).steady).trans (tallyDelivery_only ..).steady).trans (lampSwitchPoint_only ..).steady).trans
    (mgmtSwitchPoint_only _).steady)

theorem stampEpoch_steady (e : Epoch) (o : SpOrigin) (s : State) : Steady s (stampEpoch e o s) :=
  modSp_steady s _ fun _ => rfl

theorem setMarks_steady (e : Epoch) (relay : Bool) (s : State) : Steady s (setMarks e relay s) :=
  modPorts_steady s _ rfl rfl id ⟨rfl, rfl, rfl, rfl, rfl, rfl⟩ ⟨rfl, rfl, rfl, rfl, rfl, rfl⟩

theorem makeHead_steady (o : SpOrigin) (s : State) : Steady s (makeHead o s) :=
  (((stampEpoch_steady ..).trans (modSp_steady _ _ id)).trans (setMarks_steady ..)).trans (deliver_steady ..)

theorem makeLocal_steady (c : Epoch) (s : State) : Steady s (makeLocal c s) :=
  ((stampEpoch_steady ..).trans (setMarks_steady ..)).trans (deliver_steady ..)

theorem actOnMarker_steady (e : Epoch) (s : State) : Steady s (actOnMarker e s) :=
  ((stampEpoch_steady ..).trans (setMarks_steady ..)).trans (deliver_steady ..)

theorem restartFreeRun_steady (s : State) : Steady s (restartFreeRun s) :=
  Steady.ite (fun _ => modSp_steady s _ id) fun _ => .refl s

theorem takeMarker_steady (e : Epoch) (s : State) : Steady s (takeMarker e s) := by
  unfold takeMarker
  refine Steady.ite (fun _ => Steady.ite (fun _ => actOnMarker_steady e s) fun _ => .refl s) fun _ => ?_
  dsimp only
  exact (restartFreeRun_steady s).trans (Steady.ite (fun _ => .refl _) fun _ => actOnMarker_steady e _)

theorem restoreReference_steady (s : State) : Steady s (restoreReference s) :=
  Steady.ite (fun _ => (modSp_steady s _ id).trans (report_only ..).steady) fun _ => .refl s

theorem takePulse_steady (s : State) : Steady s (takePulse s) :=
  Steady.ite (fun _ => (modSp_steady s _ id).trans (restoreReference_steady _)) fun _ => .refl s

theorem loseReference_steady (s : State) : Steady s (loseReference s) :=
  Steady.ite (fun _ => (modSp_steady s _ id).trans (report_only ..).steady) fun _ => .refl s

theorem scheduledPoint_steady (s : State) : Steady s (scheduledPoint s) := by
  refine Steady.ite (fun _ => ?_) fun _ => .refl s
  cases takeDue s.sp.schedule with
  | none => exact .refl s
  | some l =>
    exact Steady.ite (fun _ => (modSp_steady s _ id).trans (makeHead_steady ..)) fun _ => modSp_steady s _ id

theorem localPoint_steady (s : State) : Steady s (localPoint s) := by
  refine Steady.ite (fun _ => ?_) fun _ => .refl s
  cases s.sp.epoch with
  | none => exact .refl s
  | some c => exact makeLocal_steady c s

/-! ### Cells and requests -/

theorem onItem_steady (items i : Nat) (f : State → State) (s : State) (h : Steady s (f s)) :
    Steady s (onItem items i f s) := Steady.ite (fun _ => h) fun _ => .refl s

theorem clearItems_steady (items : Nat) (s : State) : Steady s (clearItems items s) := by
  have next : ∀ (i : Nat) (f : State → State) (t : State), (∀ t, Steady t (f t)) → Steady s t →
      Steady s (onItem items i f t) := fun i f t hf ht => ht.trans (onItem_steady items i f t (hf t))
  unfold clearItems
  refine next _ _ _ (fun t => (clearLampFaults_only t).steady) ?_
  refine next _ _ _ (fun t => (clearClipped_only t).steady) ?_
  refine next _ _ _ (fun t => (clearCollisions_only t).steady) ?_
  refine next _ _ _ (fun t => (modTally_only t _).steady) ?_
  refine next _ _ _ (fun t => (modPanel_only t _).steady) ?_
  refine next _ _ _ (fun t => (modCells_only t _).steady) ?_
  refine next _ _ _ (fun t => ?_) ((modMgmt_only s _).steady)
  exact modPorts_steady t _ rfl rfl id ⟨rfl, rfl, rfl, rfl, rfl, rfl⟩ ⟨rfl, rfl, rfl, rfl, rfl, rfl⟩

theorem inBandReset_steady (s : State) : Steady s (inBandReset s) := ⟨⟨rfl, rfl, id, id⟩, fun _ => .refl _⟩

theorem serve_steady (src : Byte) (r : Request) (s : State) : Steady s (serve src r s).1 := by
  cases r with
  | set table index entry => exact (serveSet_only ..).steady
  | loadOpen table start count => exact (serveLoadOpen_only ..).steady
  | loadData seg data => exact (serveLoadData_only ..).steady
  | take m => exact (takeRequest_only ..).steady
  | protect dest mode => exact (routerProtect_only ..).steady
  | release dest => exact (routerRelease_only ..).steady
  | airlock dest => exact (routerAirlock_only ..).steady
  | showLock => exact (modMgmt_only s fun m => { m with showLock := true }).steady
  | clear items =>
    show Steady s (serveClear items s).1
    rw [serveClear, apply_ite Prod.fst]
    exact Steady.ite (fun _ => .refl s) fun _ => clearItems_steady items s
  | resetExecute =>
    show Steady s (serveExecute src s).1
    rw [serveExecute, apply_ite Prod.fst]
    exact Steady.ite (fun _ => inBandReset_steady s) fun _ => .refl s
  | query | status | identify | resetPrepare | unknown | short => exact .refl s

theorem cleanIntegrity_steady (s : State) : Steady s (cleanIntegrity s) :=
  modPorts_steady s _ rfl rfl id ⟨rfl, rfl, rfl, rfl, rfl, rfl⟩ ⟨rfl, rfl, rfl, rfl, rfl, rfl⟩

theorem serveNew_steady (src tag : Byte) (r : Request) (s : State) : Steady s (serveNew src tag r s) := by
  have h := (serve_steady src r s).trans
    (answer_only src tag (requestCode r) (codeByte (serve src r s).2.code :: (serve src r s).2.fields) _).steady
  exact Steady.ite (fun _ => h.trans (cleanIntegrity_steady _)) fun _ => h

theorem takeRequestCell_steady (src tag : Byte) (r : Request) (s : State) : Steady s (takeRequestCell src tag r s) := by
  unfold takeRequestCell
  split
  · exact Steady.ite (fun _ => (sendCell_only ..).steady) fun _ => serveNew_steady ..
  · exact serveNew_steady ..

theorem handCell_steady (k : CellKind) (c : Cell) (s : State) : Steady s (handCell k c s) := by
  cases k with
  | talkOn => exact (takeTalkOn_only ..).steady
  | talkOff => exact (takeTalkOff_only ..).steady
  | talkReply => exact (takeTalkReply_only ..).steady
  | confOn => exact (takeConfOn_only ..).steady
  | confOff => exact (takeConfOff_only ..).steady
  | call => exact (takeCall_only ..).steady
  | callCancel => exact (takeCancel_only ..).steady
  | tallySet => exact (takeTallySet_only ..).steady
  | request => exact takeRequestCell_steady ..
  | reply => exact (takeReply_only ..).steady
  | event => exact .refl s

theorem receiveCell_steady (c : Cell) (s : State) : Steady s (receiveCell c s) := by
  unfold receiveCell
  split
  · exact handCell_steady ..
  · exact (modCells_only ..).steady
  · exact (modCells_only ..).steady
  · exact (modCells_only ..).steady

theorem fromCell_steady (src : Byte) (f : State → State) (s : State) (h : Steady s (f s)) :
    Steady s (fromCell src f s) :=
  Steady.ite (fun _ => .refl s) fun _ => Steady.ite (fun _ => h) fun _ => (modCells_only ..).steady

/-! ### Frames -/

theorem enterBuffer_steady (p : Port) (f : WireFrame) (s : State) : Steady s (enterBuffer p f s) :=
  Steady.ite (fun _ => modPort_steady s _ _ fun _ => ⟨rfl, rfl, rfl, rfl, rfl, rfl⟩) fun _ => .refl s

theorem copySlots_steady (p : Port) (b : FrameBody) (s : State) : Steady s (copySlots p b s) :=
  modPort_steady s _ _ fun _ => ⟨rfl, rfl, rfl, rfl, rfl, rfl⟩

theorem countBadCell_steady (p : Port) (fate : Option CellFate) (s : State) : Steady s (countBadCell p fate s) := by
  cases fate with
  | none => exact .refl s
  | some x => exact Steady.ite (fun _ => modPort_steady s _ _ fun _ => ⟨rfl, rfl, rfl, rfl, rfl, rfl⟩) fun _ => .refl s

theorem actOnFrame_steady (marker : Option Epoch) (cell : Option Cell) (s : State) :
    Steady s (actOnFrame marker cell s) := by
  have hc : Steady s s.countChoice := (countChoice_only s).steady
  cases marker with
  | none =>
    cases cell with
    | none => exact .refl s
    | some c => exact receiveCell_steady c s
  | some e =>
    cases cell with
    | none => exact takeMarker_steady e s
    | some c =>
      exact Steady.ite (fun _ => (hc.trans (takeMarker_steady ..)).trans (receiveCell_steady ..))
        fun _ => (hc.trans (receiveCell_steady ..)).trans (takeMarker_steady ..)

theorem readFrame_steady (p : Port) (f : WireFrame) (s : State) : Steady s (readFrame p f s) :=
  (((((judgeConflict_steady ..).trans (judgeMode_steady ..)).trans (countBadCell_steady ..)).trans
    (copySlots_steady ..)).trans (enterBuffer_steady ..)).trans (actOnFrame_steady ..)

/-- R7: a port whose input moves holds the straps, the headship and the epoch. -/
theorem modPort_held (s : State) (p : Port) (f : PortState → PortState) : Held s (s.modTrunk (modPort p f)) :=
  ⟨modPort_addr .., modPort_headStrap .., fun hy => (modPort_yielded p f s.trunk).trans hy, id⟩

/-- R7: the node once an arriving frame has moved its input, before the frame itself is taken. -/
def frameCounted (p : Port) (f : WireFrame) (s : State) : State :=
  lockMoved s.trunk p (s.modTrunk (modPort p (countFrame (headerGood f))))

/-- R7 to R19: what follows an arriving frame's count moves no input any further. -/
theorem arrive_steady (p : Port) (f : WireFrame) (s : State) : Steady (frameCounted p f s) (arrive p f s) := by
  show Steady (frameCounted p f s) (if headerGood f && isLocked (frameCounted p f s).trunk p then
    if isIdle f then enterBuffer p f (judgeConflict f (frameCounted p f s)) else readFrame p f (frameCounted p f s)
    else enterBuffer p f (frameCounted p f s))
  refine Steady.ite (fun _ => Steady.ite (fun _ => ?_) fun _ => readFrame_steady ..) fun _ => enterBuffer_steady ..
  exact (judgeConflict_steady ..).trans (enterBuffer_steady ..)

theorem arrive_held (p : Port) (f : WireFrame) (s : State) : Held s (arrive p f s) :=
  ((modPort_held s p _).trans (lockMoved_steady ..).toHeld).trans (arrive_steady p f s).toHeld

theorem missFrame_held (p : Port) (s : State) : Held s (missFrame p s) := by
  unfold missFrame
  split
  · exact (modPort_held s p _).trans (lockMoved_steady ..).toHeld
  · exact .refl s

/-- The blocks that the insertions into a frame can change. -/
def insertBlocks : List Block := [.router, .cells, .mgmt]

theorem collide_only (n : Fin 32) (t : SlotId) (d : Dir) (orig : Byte) (s : State) :
    Only insertBlocks s (collide n t d orig s) := by
  unfold collide
  dsimp only
  split
  · exact Only.refl _ s
  · exact ((modRoute_only ..).mono (by decide)).trans ((report_only ..).mono (by decide))

theorem insertOne_only (b : FrameBody) (d : Dir) (orig : Byte) (n : Fin 32) (a : State × FrameBody) :
    Only insertBlocks a.1 (insertOne b d orig n a).1 := by
  unfold insertOne
  split
  · exact Only.refl _ a.1
  · split
    · exact collide_only ..
    · exact Only.refl _ a.1

theorem insertAll_only (b : FrameBody) (d : Dir) (orig : Byte) (s : State) :
    Only insertBlocks s (insertAll b d orig s).1 :=
  forFin_induct (fun a : State × FrameBody => Only insertBlocks s a.1) _
    (fun n a h => h.trans (insertOne_only b d orig n a)) (s, b) (Only.refl _ s)

theorem offerSlot_only (d : Dir) (b : FrameBody) (s : State) : Only cellBlocks s (offerSlot d b s).1 := by
  unfold offerSlot
  split
  · exact Only.refl _ s
  · exact grant_only d s

theorem fillFrame_only (p : Port) (f : WireFrame) (s : State) : Only insertBlocks s (fillFrame p f s).1 := by
  unfold fillFrame
  dsimp only
  split
  · generalize hr : insertAll (bodyOf f) (portDir p) (originator f) s = r
    have h : Only insertBlocks s r.1 := hr ▸ insertAll_only ..
    exact h.trans ((offerSlot_only (portDir p) r.2 r.1).mono (by decide))
  · exact Only.refl _ s

theorem buildFrame_only (p : Port) (s : State) : Only insertBlocks s (buildFrame p s).1 := by
  unfold buildFrame
  dsimp only
  split
  · exact Only.refl _ s
  · exact Only.refl _ s
  · exact fillFrame_only ..
  · exact fillFrame_only ..

theorem sendFrame_steady (p : Port) (s : State) : Steady s (sendFrame p s) :=
  Steady.ite (fun _ => .refl s) fun _ => (buildFrame_only p s).steady.trans
    (modPort_steady _ _ _ fun _ => ⟨rfl, rfl, rfl, rfl, rfl, rfl⟩)

/-! ### The sample period -/

theorem lampFrame_only (s : State) : Only [.lamp] s (lampFrame s) := by
  unfold lampFrame
  exact modLamp_only ..

theorem reportAllClipped_only (x : Vector MixPeriod 24) (old : MixEngine) (s : State) :
    Only cellBlocks s (reportAllClipped x old s) := only_forFin _ (fun _ _ => reportClipped_only ..) s

theorem tick_held (s : State) : Held s (tick s) := ⟨rfl, rfl, id, id⟩

theorem runPeriod_held (tdm : Vector Sample 32) (s : State) : Held s (runPeriod tdm s) := by
  have h : Held s { s with mix := mixAfter (mixPeriods tdm s) s.mix, router := routerAfter tdm (mixPeriods tdm s) s } :=
    ⟨rfl, rfl, id, id⟩
  exact ((h.trans (reportAllClipped_only ..).steady.toHeld).trans (lampFrame_only _).steady.toHeld).trans (tick_held _)

theorem repeaterPeriod_held (s : State) : Held s (repeaterPeriod s) := ⟨rfl, rfl, id, id⟩

/-! ### Every command -/

theorem act_held {f : State → State} {s t : State} (h : act f s = .next t) (hf : Steady s (f s)) : Held s t := by
  cases h
  split
  · exact hf.toHeld
  · exact .refl s

theorem fromCell_held {src : Byte} {f : State → State} {s t : State} (h : act (fromCell src f) s = .next t)
    (hf : Steady s (f s)) : Held s t := act_held h (fromCell_steady src f s hf)

theorem request_held {src tag : Byte} {r : Request} {s t : State} (h : request src tag r s = .next t) : Held s t :=
  fromCell_held h (takeRequestCell_steady ..)

theorem exec_held (c : Instr) (s t : State) (hc : ∀ a h, c ≠ .pinReset a h) (h : exec c s = .next t) : Held s t := by
  cases c with
  | pinReset a hd => exact absurd rfl (hc a hd)
  | frameArrival p f =>
    cases h
    split
    · exact arrive_held p f s
    · exact modPort_held ..
  | missingFrame p =>
    cases h
    split
    · exact missFrame_held p s
    · exact .refl s
  | outputFrameSend p => exact act_held h (sendFrame_steady p s)
  | samplePeriod tdm =>
    cases h
    split
    · exact runPeriod_held tdm s
    · exact repeaterPeriod_held s
  | referencePulse => exact act_held h (takePulse_steady s)
  | referenceLost => exact act_held h (loseReference_steady s)
  | scheduledSwitchPoint => exact act_held h (scheduledPoint_steady s)
  | headFreeRun => exact act_held h (Steady.ite (fun _ => makeHead_steady ..) fun _ => .refl s)
  | epochHoldOffEnd => exact act_held h (Steady.ite (fun _ => modSp_steady s _ id) fun _ => .refl s)
  | localSwitchPoint => exact act_held h (localPoint_steady s)
  | originResend idx => exact act_held h (Steady.ite (fun _ => (resendOrigin_only ..).steady) fun _ => .refl s)
  | leaseExpiry l node idx => exact act_held h (Steady.ite (fun _ => (expireTalker_only ..).steady) fun _ => .refl s)
  | callExpiry target caller =>
    exact act_held h (Steady.ite (fun _ => ((modCalls_only ..).trans (resolveFor_only ..)).steady) fun _ => .refl s)
  | keyWindowEnd m k => exact act_held h (modKey_only ..).steady
  | routeCountdownEnd m k => exact act_held h (modKey_only ..).steady
  | loadAbandoned => exact act_held h (abandonIfDue_only s).steady
  | lampPeriodStart => exact act_held h (lampPeriodStart_only s).steady
  | faultSense reads => exact act_held h (takeFaultReads_only reads s).steady
  | gpiSample closed => exact act_held h (takeGpiSample_only closed s).steady
  | scan i bytes => exact act_held h (takeScan_only ..).steady
  | autoHoldReached m k => exact act_held h (modKey_only ..).steady
  | panelTimeout i => exact act_held h (timeoutLine_only ..).steady
  | talkOn src tag m => exact fromCell_held h (takeTalkOn_only ..).steady
  | talkOff src tag m => exact fromCell_held h (takeTalkOff_only ..).steady
  | talkReply src tag m => exact fromCell_held h (takeTalkReply_only ..).steady
  | confOn src tag m => exact fromCell_held h (takeConfOn_only ..).steady
  | confOff src tag m => exact fromCell_held h (takeConfOff_only ..).steady
  | call src tag m => exact fromCell_held h (takeCall_only ..).steady
  | callCancel src tag m => exact fromCell_held h (takeCancel_only ..).steady
  | tallySet src tag m => exact fromCell_held h (takeTallySet_only ..).steady
  | reply src tag m => exact fromCell_held h (takeReply_only ..).steady
  | _ => exact request_held h

/-- Settles O11: every command but PIN_RESET holds the straps, the headship and the epoch (`exec_held`). -/
theorem strapsHeld : Obligations.StrapsHeld := by
  intro c s t hc h
  have held := exec_held c s t hc h
  exact ⟨held.addr, held.headStrap, held.yielded, held.epoch⟩

end Sys2Proof.Machine
end

section
/-! SUPPORT. Pin reset (O3) and the pass-through repeater (O4). -/

namespace Sys2Proof.Machine

open Sys2Proof

/-! ### Pin reset -/

/-- R1: the address test on the six straps and on the byte that holds them agree. -/
theorem isMemberAddr_iff (a : BitVec 6) : isMemberAddr a = true ↔ 1 ≤ a.toNat ∧ a.toNat ≤ 62 := by
  have h0 : a = 0 ↔ a.toNat = 0 := BitVec.toNat_inj.symm
  have h63 : a = 63 ↔ a.toNat = 63 := BitVec.toNat_inj.symm
  simp only [isMemberAddr, Bool.and_eq_true, bne_iff_ne, ne_eq, h0, h63]
  omega

/-- R40: the reference state after pin reset. -/
theorem pinReset_ref (a : BitVec 6) (h : Bool) :
    (SwitchUnit.reset a h).ref = if 1 ≤ a.toNat ∧ a.toNat ≤ 62 ∧ h = true then .lost else .notUsed := by
  simp only [SwitchUnit.reset, Bool.and_eq_true, isMemberAddr_iff, and_assoc]

/-- R25: both ports are those of pin reset, and their outputs are IDLE. -/
theorem pinReset_port (a : BitVec 6) (h : Bool) (p : Port) :
    portOf (Trunk.reset a h) p = PortState.reset ∧ content (Trunk.reset a h) p = .idle := by
  cases p <;> exact ⟨rfl, rfl⟩

/-- R53: the entries in use of the default schedule, and the one behind them. -/
theorem schedReset_head : (List.range 9).map (schedAt CellEngine.reset) =
    [.urgent, .talk, .urgent, .reply, .urgent, .talk, .urgent, .event, .urgent] := by decide +kernel

/-- R53: the entries of the default schedule beyond its length. -/
theorem schedReset_tail (n : Fin 32) (hn : 8 ≤ n.val) : schedReset[n] = .urgent := by
  have h1 : ¬(n.val = 1 ∨ n.val = 5) := by omega
  have h3 : n.val ≠ 3 := by omega
  have h7 : n.val ≠ 7 := by omega
  simp [schedReset, h1, h3, h7]

/-- Settles O3: each block after PIN_RESET is read off its reset value. -/
theorem pinReset : Obligations.PinReset := by
  intro a h s
  refine ⟨_, rfl, ?_, rfl, rfl, rfl, rfl, pinReset_port a h, fun d => by cases d <;> rfl, ?_, rfl, schedReset_head,
    schedReset_tail, fun d => vof_get .., rfl, fun n => ⟨vof_get .., vof_get ..⟩, fun i => vof_get .., rfl, ?_,
    fun c => ?_, fun m => ⟨vof_get .., vof_get ..⟩, rfl, fun i => vof_get .., fun m => ?_,
    fun k => ⟨vof_get .., vof_get ..⟩, fun b => vof_get .., fun g => ?_, rfl, rfl, fun n => vof_get .., rfl, rfl,
    fun j => ⟨vof_get .., vof_get .., vof_get ..⟩, fun w => ⟨vof_get .., vof_get ..⟩, rfl, rfl, rfl, rfl, rfl, rfl,
    rfl, rfl, fun n => vof_get .., rfl, rfl⟩
  case refine_1 =>
    show (a.setWidth 8).toNat = a.toNat
    rw [BitVec.toNat_setWidth]
    omega
  case refine_2 => exact congrArg (fun r => { SwitchUnit.reset a h with ref := r }) (pinReset_ref a h)
  case refine_3 =>
    intro l
    cases l with
    | direct m => exact vof_get ..
    | conf c => exact congrArg ConfEntry.list (vof_get ..)
  case refine_4 => exact congrArg ConfEntry.home (vof_get 64 (fun _ => ({ home := false, list := [] } : ConfEntry)) c)
  case refine_5 =>
    have hm : Panel.reset.maps[m] = KeyMap.reset m := vof_get ..
    simp [State.pinReset, hm, KeyMap.reset]
  case refine_6 =>
    have hg : Tally.reset.gpi[g] = GpiEntry.reset g := vof_get ..
    have hs : Tally.reset.gpiState[g] = { cond := false, run := 0, mark := false } := vof_get ..
    refine ⟨?_, ?_, hs⟩
    · simp [State.pinReset, hg, GpiEntry.reset]
    · simp only [State.pinReset, hg, GpiEntry.reset, BitVec.toNat_ofNat]
      omega

/-! ### The repeater -/

/-- R2: a command that acts on ring members leaves a pass-through repeater as it is. -/
theorem act_repeater {s : State} (h : isMember s.trunk = false) (f : State → State) : act f s = .next s := by
  simp [act, h]

/-- R2: the commands that a pass-through repeater does not take. -/
theorem exec_repeater {s : State} (h : isMember s.trunk = false) (c : Instr) (hreset : ∀ a b, c ≠ .pinReset a b)
    (hframe : ∀ p f, c ≠ .frameArrival p f) (hperiod : ∀ tdm, c ≠ .samplePeriod tdm) : exec c s = .next s := by
  cases c with
  | pinReset a b => exact absurd rfl (hreset a b)
  | frameArrival p f => exact absurd rfl (hframe p f)
  | samplePeriod tdm => exact absurd rfl (hperiod tdm)
  | _ => exact act_repeater h _

theorem repeaterPeriod_only (s : State) : Only [.trunk, .router, .lamp] s (repeaterPeriod s) :=
  (((modRouter_only s _).mono (by decide)).trans ((modLamp_only _ _).mono (by decide))).trans
    ((modTrunk_only _ _).mono (by decide))

/-- Settles O4: the two commands that a repeater takes, by their arms; every other by `exec_repeater`. -/
theorem repeaterPasses : Obligations.RepeaterPasses := by
  intro s h
  refine ⟨fun p f => ⟨repeatFrame p f s, ?_, modTrunk_only s _, rfl⟩, fun tdm => ⟨repeaterPeriod s, ?_,
    repeaterPeriod_only s, rfl, rfl, fun n => vof_get .., fun w => vof_get .., rfl⟩, exec_repeater h⟩
  · simp [exec, execFrameArrival, h]
  · simp [exec, execSamplePeriod, h]

end Sys2Proof.Machine
end

section
/-! SUPPORT. The roles of a Trunk Interface, what a change of roles does to it, and the pool of buffers (O14). -/

namespace Sys2Proof.Machine

open Sys2Proof

/-! ### Roles (R1, R11 to R14, R24) -/

@[simp] theorem other_other (p : Port) : other (other p) = p := by cases p <;> rfl

theorem isMember_iff (t : Trunk) : isMember t = true ↔ 1 ≤ t.addr.toNat ∧ t.addr ≠ 63 := by
  have h0 : t.addr = 0 ↔ t.addr.toNat = 0 := BitVec.toNat_inj.symm
  simp only [isMember, Bool.and_eq_true, bne_iff_ne, ne_eq, h0, Nat.one_le_iff_ne_zero]

theorem activeHead_iff (t : Trunk) :
    activeHead t = true ↔ isMember t = true ∧ t.headStrap = true ∧ t.yielded = false := by
  simp [activeHead, and_assoc]

theorem closingHead_iff (t : Trunk) : closingHead t = true ↔ activeHead t = true ∧ t.mode = .closed := by
  simp [closingHead]

theorem isLocked_iff (t : Trunk) (p : Port) : isLocked t p = true ↔ (portOf t p).lock = .locked := by
  simp [isLocked]

theorem content_idle_iff (t : Trunk) (p : Port) : content t p = .idle ↔ isLocked t p = false := by
  unfold content
  cases isLocked t p <;> cases closingHead t || !isLocked t (other p) <;> simp

theorem content_originated_iff (t : Trunk) (p : Port) : content t p = .originated ↔
    isLocked t p = true ∧ (closingHead t = true ∨ isLocked t (other p) = false) := by
  unfold content
  cases isLocked t p <;> cases closingHead t <;> cases isLocked t (other p) <;> simp

theorem content_forwarded_iff (t : Trunk) (p : Port) : content t p = .forwarded ↔
    isLocked t p = true ∧ closingHead t = false ∧ isLocked t (other p) = true := by
  unfold content
  cases isLocked t p <;> cases closingHead t <;> cases isLocked t (other p) <;> simp

/-- R14: while an output carries FORWARDED frames its direction is inserted into. -/
theorem inserts_of_forwarded {t : Trunk} {p : Port} (h : content t p = .forwarded) : inserts t (portDir p) = true := by
  obtain ⟨_, hc, _⟩ := (content_forwarded_iff t p).1 h
  cases p <;> simp [inserts, portDir, dirPort, h, hc]

theorem roleOf_headYielded {t : Trunk} (hs : t.headStrap = true) (hy : t.yielded = true) : roleOf t = .headYielded := by
  simp [roleOf, hs, hy]

theorem roleOf_active {t : Trunk} (h : activeHead t = true) :
    roleOf t = if t.mode = .closed then .headClosed else .headOpen := by
  obtain ⟨_, _, hy⟩ := (activeHead_iff t).1 h
  simp [roleOf, h, hy]

theorem roleOf_iff (t : Trunk) :
    (roleOf t = .member ↔ activeHead t = false ∧ ¬(t.headStrap = true ∧ t.yielded = true)) ∧
    (roleOf t = .headClosed ↔ activeHead t = true ∧ t.mode = .closed) ∧
    (roleOf t = .headOpen ↔ activeHead t = true ∧ t.mode = .opened) ∧
    (roleOf t = .headYielded ↔ t.headStrap = true ∧ t.yielded = true) := by
  by_cases hy : t.headStrap = true ∧ t.yielded = true
  · have ha : activeHead t = false := by simp [activeHead, hy.2]
    simp [roleOf_headYielded hy.1 hy.2, ha, hy]
  · have hn : (t.headStrap && t.yielded) = false := by simpa using hy
    cases ha : activeHead t <;> cases hm : t.mode <;> simp [roleOf, ha, hn, hm, hy]

/-- R1, R11 to R14, R24: every Trunk Interface has the roles of the chapter. -/
theorem rolesGiven (t : Trunk) : RolesGiven t where
  ports := ⟨rfl, rfl, rfl, rfl, rfl, rfl⟩
  member := isMember_iff t
  head := activeHead_iff t
  idle p h := by
    rw [content_idle_iff, Bool.eq_false_iff, ne_eq, isLocked_iff]
    exact h
  originated p h g := by
    rw [content_originated_iff, isLocked_iff, closingHead_iff, Bool.eq_false_iff, ne_eq, isLocked_iff]
    exact ⟨h, g⟩
  forwarded p h g k := by
    rw [content_forwarded_iff, isLocked_iff, Bool.eq_false_iff, ne_eq, closingHead_iff, isLocked_iff]
    exact ⟨h, g, k⟩
  cw := by simp [inserts, dirPort]
  ccw := by
    simp only [inserts, dirPort, Bool.and_eq_true, bne_iff_ne, ne_eq, Bool.not_eq_true', Bool.eq_false_iff,
      beq_self_eq_true, closingHead_iff, true_and]
    tauto
  role _ := roleOf_iff t

/-! ### Trunk Interfaces of the same roles -/

/-- All that the roles are made of stands: straps, headship, ring mode, and which inputs are LOCKED. -/
structure SameRoles (t u : Trunk) : Prop where
  addr : u.addr = t.addr
  headStrap : u.headStrap = t.headStrap
  yielded : u.yielded = t.yielded
  mode : u.mode = t.mode
  isLocked : ∀ p, isLocked u p = isLocked t p

theorem SameRoles.refl (t : Trunk) : SameRoles t t := ⟨rfl, rfl, rfl, rfl, fun _ => rfl⟩

theorem SameRoles.trans {t u v : Trunk} (h : SameRoles t u) (g : SameRoles u v) : SameRoles t v :=
  ⟨g.addr.trans h.addr, g.headStrap.trans h.headStrap, g.yielded.trans h.yielded, g.mode.trans h.mode,
    fun p => (g.isLocked p).trans (h.isLocked p)⟩

section
variable {t u : Trunk} (h : SameRoles t u)
include h

theorem SameRoles.isMember : isMember u = isMember t := by simp [Machine.isMember, h.addr]

theorem SameRoles.activeHead : activeHead u = activeHead t := by
  simp [Machine.activeHead, h.isMember, h.headStrap, h.yielded]

theorem SameRoles.closingHead : closingHead u = closingHead t := by simp [Machine.closingHead, h.activeHead, h.mode]

theorem SameRoles.content (p : Port) : content u p = content t p := by
  simp [Machine.content, h.closingHead, h.isLocked]

theorem SameRoles.inserts (d : Dir) : inserts u d = inserts t d := by
  simp [Machine.inserts, h.closingHead, h.content]

theorem SameRoles.roleOf : roleOf u = roleOf t := by
  simp [Machine.roleOf, h.activeHead, h.headStrap, h.yielded, h.mode]

end

/-- A port changed keeps the roles while its input stays LOCKED, or stays not LOCKED. -/
theorem modPort_sameRoles {p : Port} {f : PortState → PortState} {t : Trunk}
    (hf : (f (portOf t p)).lock = .locked ↔ (portOf t p).lock = .locked) : SameRoles t (modPort p f t) := by
  have same : isLocked (modPort p f t) p = isLocked t p :=
    Bool.eq_iff_iff.2 (by simpa only [isLocked_iff, portOf_modPort_same] using hf)
  refine ⟨modPort_addr .., modPort_headStrap .., modPort_yielded .., modPort_mode .., fun q => ?_⟩
  cases p with
  | east => cases q with
    | east => exact same
    | west => rfl
  | west => cases q with
    | east => rfl
    | west => exact same

/-! ### A change of roles (R12, R14) -/

/-- R12: the port with its forwarding buffer discarded, where its output was FORWARDED under `old` and is not under `t`. -/
def bufferDropped (old t : Trunk) (p : Port) : PortState :=
  if content old p == .forwarded && content t p != .forwarded then { portOf t p with buffer := none } else portOf t p

theorem dropBuffer_sameRoles (old : Trunk) (p : Port) (t : Trunk) : SameRoles t (dropBuffer old p t) := by
  unfold dropBuffer
  split
  · exact modPort_sameRoles Iff.rfl
  · exact .refl t

/-- The Trunk Interface once both outputs have been looked at. -/
def buffersDropped (old t : Trunk) : Trunk := dropBuffer old .west (dropBuffer old .east t)

theorem buffersDropped_sameRoles (old t : Trunk) : SameRoles t (buffersDropped old t) :=
  (dropBuffer_sameRoles old .east t).trans (dropBuffer_sameRoles old .west _)

theorem buffersDropped_eq (old t : Trunk) :
    buffersDropped old t = { t with east := bufferDropped old t .east, west := bufferDropped old t .west } := by
  unfold buffersDropped
  rw [dropBuffer_eq old .west, (dropBuffer_sameRoles old .east t).content, dropBuffer_eq old .east]
  unfold bufferDropped
  cases content old .east == .forwarded && content t .east != .forwarded <;>
    cases content old .west == .forwarded && content t .west != .forwarded <;> rfl

/-- What a change of roles leaves of a port. -/
theorem portOf_buffersDropped (old t : Trunk) (p : Port) :
    portOf (buffersDropped old t) p = bufferDropped old t p := by
  rw [buffersDropped_eq]
  cases p <;> rfl

theorem rolesChanged_eq (old : Trunk) (s : State) : rolesChanged old s =
    if (inserts old .cw && !inserts s.trunk .cw) = false ∧ (inserts old .ccw && !inserts s.trunk .ccw) = false then
      s.modTrunk (buffersDropped old)
    else prune (inserts old .cw && !inserts s.trunk .cw) (inserts old .ccw && !inserts s.trunk .ccw)
      (s.modTrunk (buffersDropped old)) := by
  have h := fun d => (buffersDropped_sameRoles old s.trunk).inserts d
  unfold buffersDropped at h
  unfold rolesChanged
  simp only [State.modTrunk_trunk, h]
  cases inserts old .cw && !inserts s.trunk .cw <;> cases inserts old .ccw && !inserts s.trunk .ccw <;> simp <;> rfl

theorem rolesChanged_trunk (old : Trunk) (s : State) : (rolesChanged old s).trunk = buffersDropped old s.trunk := by
  rw [rolesChanged_eq]
  split
  · rfl
  · exact (prune_only ..).keep .trunk (by decide)

theorem rolesChanged_sameRoles (old : Trunk) (s : State) : SameRoles s.trunk (rolesChanged old s).trunk := by
  rw [rolesChanged_trunk]
  exact buffersDropped_sameRoles old s.trunk

/-! ### The pending exhaustion report (R49) -/

theorem controllerSet_iff (m : Mgmt) : controllerSet m = true ↔ 1 ≤ m.params.ctrl ∧ m.params.ctrl ≤ 62 := by
  simp [controllerSet]

/-- R49, R202: the pending exhaustion report is cleared and flagged. -/
def reportTaken (s : State) : State :=
  (s.modCells fun c => { c with exhausted := false }).modMgmt
    fun m => { m with sticky := setSticky .poolExhausted m.sticky }

theorem reportTaken_eq (s : State) : reportTaken s =
    { s with
      cells := { s.cells with exhausted := false }, mgmt := { s.mgmt with sticky := s.mgmt.sticky ||| 0x8000 } } := rfl

theorem bufferReturned_none {s : State} (h : s.cells.exhausted = false) : bufferReturned s = s := by
  simp [bufferReturned, h]

/-- R49, R203: with the report flagged, an event cell is made where there is a controller. -/
theorem bufferReturned_some {s : State} (h : s.cells.exhausted = true) : bufferReturned s =
    if 1 ≤ s.mgmt.params.ctrl ∧ s.mgmt.params.ctrl ≤ 62 then
      (createRaw .event (b8 s.mgmt.params.ctrl) none (15 :: lossBytes s.cells) (reportTaken s)).1
    else reportTaken s := by
  have hc : controllerSet (reportTaken s).mgmt = decide (1 ≤ s.mgmt.params.ctrl ∧ s.mgmt.params.ctrl ≤ 62) :=
    Bool.eq_iff_iff.2 ((controllerSet_iff _).trans decide_eq_true_iff.symm)
  unfold bufferReturned
  rw [if_pos h]
  dsimp only
  rw [show (s.modCells fun c => { c with exhausted := false }).modMgmt
    (fun m => { m with sticky := setSticky .poolExhausted m.sticky }) = reportTaken s from rfl, hc]
  simp only [decide_eq_true_eq]
  rfl

theorem ctrl_byte_ne_zero {n : Nat} (h1 : 1 ≤ n) (h62 : n ≤ 62) : b8 n ≠ 0 := by
  intro h
  have hn : n % 256 = 0 := by simpa [b8] using congrArg BitVec.toNat h
  omega

/-- R47: a cell to the node itself is undeliverable. -/
theorem createRaw_own {k : CellClass} {kind : CellKind} {dest : Byte} {tag : Option Byte} {payload : List Byte} {s : State}
    (hk : kindClass kind = some k) (hd : dest = s.trunk.addr) :
    createRaw kind dest tag payload s = (s.modCells (countUndeliverable k 1), none) := by
  unfold createRaw
  simp [hk, hd]

/-- R47: a cell of this node's own tag, with a buffer for it: queued, or undeliverable where nothing is inserted into. -/
theorem createRaw_tagged {k : CellClass} {kind : CellKind} {dest : Byte} {payload : List Byte} {s : State}
    (hk : kindClass kind = some k) (h0 : dest ≠ 0) (hd : dest ≠ s.trunk.addr) (hf : 0 < s.cells.free) :
    (createRaw kind dest none payload s).1 = s.modCells fun c =>
      if inserts s.trunk .cw || inserts s.trunk .ccw then
        { c with
          tag := c.tag + 1, free := c.free - 1
          queues := c.queues.mod k (· ++ [{ cell := makeCell kind dest s.cells.tag payload s, cw := inserts s.trunk .cw
                                            ccw := inserts s.trunk .ccw, sent := false }]) }
      else { c with tag := c.tag + 1, undeliverable := c.undeliverable.mod k (satAdd · 1) } := by
  have h : (decide (dest = 0) || decide (dest = s.trunk.addr)) = false := by
    rw [decide_eq_false h0, decide_eq_false hd]
    rfl
  unfold createRaw
  simp only [hk]
  rw [h, if_neg (by simp), if_neg (by omega)]
  cases inserts s.trunk .cw || inserts s.trunk .ccw <;> rfl

theorem bufferReturned_own {s : State} (hx : s.cells.exhausted = true) (h1 : 1 ≤ s.mgmt.params.ctrl)
    (h62 : s.mgmt.params.ctrl ≤ 62) (hd : b8 s.mgmt.params.ctrl = s.trunk.addr) :
    bufferReturned s = (reportTaken s).modCells (countUndeliverable .event 1) := by
  rw [bufferReturned_some hx, if_pos ⟨h1, h62⟩, createRaw_own (s := reportTaken s) (k := .event) rfl hd]

/-- R49: the cell of a pending exhaustion report, made in the buffer that has returned. -/
theorem bufferReturned_sent {s : State} (hx : s.cells.exhausted = true) (hf : 0 < s.cells.free)
    (h1 : 1 ≤ s.mgmt.params.ctrl) (h62 : s.mgmt.params.ctrl ≤ 62) (hd : b8 s.mgmt.params.ctrl ≠ s.trunk.addr) :
    bufferReturned s = (reportTaken s).modCells fun c =>
      if inserts s.trunk .cw || inserts s.trunk .ccw then
        { c with
          tag := c.tag + 1, free := c.free - 1
          queues := c.queues.mod .event (· ++
            [{ cell := makeCell .event (b8 s.mgmt.params.ctrl) s.cells.tag (15 :: lossBytes s.cells) s
               cw := inserts s.trunk .cw, ccw := inserts s.trunk .ccw, sent := false }]) }
      else { c with tag := c.tag + 1, undeliverable := c.undeliverable.mod .event (satAdd · 1) } := by
  rw [bufferReturned_some hx, if_pos ⟨h1, h62⟩]
  exact createRaw_tagged (s := reportTaken s) rfl (ctrl_byte_ne_zero h1 h62) hd hf

/-! ### Pruning (R52) -/

/-- A cell keeps a direction when these two are taken from it. -/
def livesOn (cw ccw : Bool) (q : QCell) : Bool := (q.cw && !cw) || (q.ccw && !ccw)

theorem dropDirs_done (cw ccw : Bool) (q : QCell) : (dropDirs cw ccw q).done = !livesOn cw ccw q := by
  simp [dropDirs, QCell.done, livesOn]

theorem pruneKeep_eq (cw ccw : Bool) (q : List QCell) :
    pruneKeep cw ccw q = (q.filter (livesOn cw ccw)).map (dropDirs cw ccw) := by
  have h : (fun x : QCell => !x.done) ∘ dropDirs cw ccw = livesOn cw ccw := by
    funext x
    simp [dropDirs_done]
  rw [pruneKeep, List.filter_map, h]

theorem pruneUnsent_eq (cw ccw : Bool) (q : List QCell) :
    pruneUnsent cw ccw q = (q.filter fun x => !livesOn cw ccw x && !x.sent).length := by
  have h : (fun x : QCell => x.done && !x.sent) ∘ dropDirs cw ccw = fun x => !livesOn cw ccw x && !x.sent := by
    funext x
    show ((dropDirs cw ccw x).done && !x.sent) = _
    rw [dropDirs_done]
  rw [pruneUnsent, List.filter_map, List.length_map, h]

/-- The cells of a queue that these directions leave with none. -/
def goneCount (cw ccw : Bool) (q : List QCell) : Nat := (q.filter fun x => !livesOn cw ccw x).length

theorem pruneKeep_add_gone (cw ccw : Bool) (q : List QCell) :
    (pruneKeep cw ccw q).length + goneCount cw ccw q = q.length := by
  have h := q.length_eq_length_filter_add (livesOn cw ccw)
  rw [pruneKeep_eq, List.length_map, goneCount]
  exact h.symm

/-- The Cell Engine with these directions taken from every outstanding set, and `freed` buffers given back. -/
def prunedFreeing (freed : Nat) (cw ccw : Bool) (c : CellEngine) : CellEngine :=
  { c with
    queues := c.queues.map (pruneKeep cw ccw)
    free := c.free + freed
    undeliverable :=
      { urgent := satAdd c.undeliverable.urgent (pruneUnsent cw ccw c.queues.urgent)
        talk := satAdd c.undeliverable.talk (pruneUnsent cw ccw c.queues.talk)
        reply := satAdd c.undeliverable.reply (pruneUnsent cw ccw c.queues.reply)
        event := satAdd c.undeliverable.event (pruneUnsent cw ccw c.queues.event) } }

/-- The cells of all queues that these directions leave with none. -/
def allGone (cw ccw : Bool) (c : CellEngine) : Nat :=
  goneCount cw ccw c.queues.urgent + goneCount cw ccw c.queues.talk + goneCount cw ccw c.queues.reply +
    goneCount cw ccw c.queues.event

theorem prunedFreeing_add_gone (freed : Nat) (cw ccw : Bool) (c : CellEngine) :
    queuedCells (prunedFreeing freed cw ccw c) + allGone cw ccw c = queuedCells c := by
  have hu := pruneKeep_add_gone cw ccw c.queues.urgent
  have ht := pruneKeep_add_gone cw ccw c.queues.talk
  have hr := pruneKeep_add_gone cw ccw c.queues.reply
  have he := pruneKeep_add_gone cw ccw c.queues.event
  simp only [queuedCells, prunedFreeing, ByClass.map, allGone]
  omega

/-- R52: the Cell Engine once the cells left without a direction have given their buffers back. -/
def prunedCells (cw ccw : Bool) (c : CellEngine) : CellEngine := prunedFreeing (allGone cw ccw c) cw ccw c

/-- R52: the cells left without a direction give their buffers back. -/
theorem prune_eq (cw ccw : Bool) (s : State) : prune cw ccw s =
    if allGone cw ccw s.cells = 0 then s.modCells (prunedCells cw ccw)
    else bufferReturned (s.modCells (prunedCells cw ccw)) := by
  have freed : queuedCells s.cells - queuedCells (prunedFreeing 0 cw ccw s.cells) = allGone cw ccw s.cells := by
    have := prunedFreeing_add_gone 0 cw ccw s.cells
    omega
  have unfolded : prune cw ccw s =
      let n := queuedCells s.cells - queuedCells (prunedFreeing 0 cw ccw s.cells)
      if queuedCells (prunedFreeing n cw ccw s.cells) < queuedCells s.cells then
        bufferReturned (s.modCells (prunedFreeing n cw ccw)) else s.modCells (prunedFreeing n cw ccw) := rfl
  have total := prunedFreeing_add_gone (allGone cw ccw s.cells) cw ccw s.cells
  rw [unfolded, freed]
  dsimp only
  by_cases h : allGone cw ccw s.cells = 0
  · rw [if_pos h, if_neg (by omega)]
    rfl
  · rw [if_neg h, if_pos (by omega)]
    rfl

/-- R52: what pruning leaves of a class. -/
theorem prunedCells_get (cw ccw : Bool) (c : CellEngine) (k : CellClass) :
    (prunedCells cw ccw c).queues.get k = ((c.queues.get k).filter (livesOn cw ccw)).map (dropDirs cw ccw) ∧
    (prunedCells cw ccw c).undeliverable.get k =
      min (c.undeliverable.get k + ((c.queues.get k).filter fun x => !livesOn cw ccw x && !x.sent).length) 65535 := by
  rw [← pruneKeep_eq, ← pruneUnsent_eq]
  cases k <;> exact ⟨rfl, rfl⟩

/-- Settles O14: the roles (`rolesGiven`), the pending report (`bufferReturned_none`, `bufferReturned_some`), pruning
(`prune_eq`) and the change of roles (`rolesChanged_eq`). -/
theorem poolReturns : Obligations.PoolReturns := by
  intro s
  refine ⟨rolesGiven s.trunk, bufferReturned_none, fun hx hf => ⟨fun hn => ?_, fun h1 h62 hd => ?_,
    fun h1 h62 hd => ⟨fun hi => ?_, fun hcw hccw => ?_⟩⟩, fun cw ccw => ?_, fun old => ?_⟩
  · rw [bufferReturned_some hx, if_neg (by omega), reportTaken_eq]
  · rw [bufferReturned_own hx h1 h62 hd]
    rfl
  · have hi' : (inserts s.trunk .cw || inserts s.trunk .ccw) = true := by simpa using hi
    rw [bufferReturned_sent hx hf h1 h62 hd, hi']
    rfl
  · have hi' : (inserts s.trunk .cw || inserts s.trunk .ccw) = false := by simp [hcw, hccw]
    rw [bufferReturned_sent hx hf h1 h62 hd, hi']
    rfl
  · exact ⟨s.modCells (prunedCells cw ccw), modCells_only s _, rfl, prunedCells_get cw ccw s.cells, prune_eq cw ccw s⟩
  · rw [rolesChanged_eq, State.modTrunk, buffersDropped_eq]
    rfl

end Sys2Proof.Machine
end

section
/-! SUPPORT. What a frame, or a missing one, does to its input and to the roles (O18, O20), before the frame itself is
taken. -/

namespace Sys2Proof.Machine

open Sys2Proof

/-! ### Ports -/

theorem modPort_congr {p : Port} {f g : PortState → PortState} {t : Trunk} (h : f (portOf t p) = g (portOf t p)) :
    modPort p f t = modPort p g t := by
  cases p with
  | east => exact congrArg (fun x => { t with east := x }) h
  | west => exact congrArg (fun x => { t with west := x }) h

/-- All but the two ports stands. -/
def PortsOnly (t u : Trunk) : Prop := u = { t with east := u.east, west := u.west }

theorem PortsOnly.trans {t u v : Trunk} (h : PortsOnly t u) (g : PortsOnly u v) : PortsOnly t v := by
  unfold PortsOnly at *
  rw [g, h]

theorem modPort_portsOnly (p : Port) (f : PortState → PortState) (t : Trunk) : PortsOnly t (modPort p f t) := by
  cases p <;> rfl

theorem buffersDropped_portsOnly (old t : Trunk) : PortsOnly t (buffersDropped old t) := by
  rw [buffersDropped_eq]
  rfl

/-- Two Trunk Interfaces of the same ports, the rest standing, are one. -/
theorem PortsOnly.eq_of_ports {t u v : Trunk} (h : PortsOnly t u) (g : PortsOnly t v)
    (hp : ∀ p, portOf u p = portOf v p) : u = v := by
  have he : u.east = v.east := hp .east
  have hw : u.west = v.west := hp .west
  unfold PortsOnly at *
  rw [h, g, he, hw]

theorem modPort_self {p : Port} {f : PortState → PortState} {t : Trunk} (h : f (portOf t p) = portOf t p) :
    modPort p f t = t := by
  cases p with
  | east => exact congrArg (fun x => { t with east := x }) h
  | west => exact congrArg (fun x => { t with west := x }) h

/-- An unchanged Trunk Interface is an unchanged node. -/
theorem modTrunk_self {f : Trunk → Trunk} {s : State} (h : f s.trunk = s.trunk) : s.modTrunk f = s := by
  simp [State.modTrunk, h]

theorem modTrunk_congr {f g : Trunk → Trunk} {s : State} (h : f s.trunk = g s.trunk) :
    s.modTrunk f = s.modTrunk g := by
  simp [State.modTrunk, h]

/-! ### LINK_CHANGE (R24, R210) -/

/-- The fields of a LINK_CHANGE: port, locks, contents and role. -/
def linkFields (port : Byte) (t : Trunk) : List Byte :=
  [port, lockCode t.east.lock, lockCode t.west.lock, contentCode (content t .east), contentCode (content t .west),
    roleCode (roleOf t)]

/-- What a change of roles leaves the fields read. -/
theorem linkFields_rolesChanged (port : Byte) (old : Trunk) (s : State) :
    linkFields port (rolesChanged old s).trunk = linkFields port s.trunk := by
  have roles := rolesChanged_sameRoles old s
  have east := ((rolesChanged_steady old s).input .east).lock
  have west := ((rolesChanged_steady old s).input .west).lock
  simp only [portOf] at east west
  simp only [linkFields, roles.content, roles.roleOf, east, west]

/-- R7, R24: the roles recomputed from `old`, then LINK_CHANGE of port `p`. -/
def linkMoved (old : Trunk) (p : Port) (s : State) : State :=
  report .linkChange (linkFields (portCode p) s.trunk) (rolesChanged old s)

theorem linkMoved_trunk (old : Trunk) (p : Port) (s : State) :
    (linkMoved old p s).trunk = buffersDropped old s.trunk := by
  rw [← rolesChanged_trunk]
  exact (report_only ..).keep .trunk (by decide)

theorem lockMoved_same {old : Trunk} {p : Port} {s : State} (h : isLocked old p = isLocked s.trunk p) :
    lockMoved old p s = s := by
  simp [lockMoved, h]

theorem lockMoved_moved {old : Trunk} {p : Port} {s : State} (h : isLocked old p ≠ isLocked s.trunk p) :
    lockMoved old p s = linkMoved old p s := by
  rw [lockMoved, if_neg (by simpa using h)]
  show report .linkChange (linkFields (portCode p) (rolesChanged old s).trunk) (rolesChanged old s) = _
  rw [linkFields_rolesChanged]
  rfl

theorem buffersDropped_same {old t : Trunk} (h : SameRoles old t) : buffersDropped old t = t := by
  have hp : ∀ p, bufferDropped old t p = portOf t p := fun p => by
    unfold bufferDropped
    rw [h.content]
    cases content old p <;> rfl
  rw [buffersDropped_eq, hp, hp]
  rfl

/-! ### An input moves (R7, R12) -/

section
variable (p : Port) (f : PortState → PortState) (s : State)

/-- R7: the node once port `p` has counted a frame, or a missing one, by `f`. -/
def portCounted : State := lockMoved s.trunk p (s.modTrunk (modPort p f))

theorem isLocked_counted : isLocked (modPort p f s.trunk) p = true ↔ (f (portOf s.trunk p)).lock = .locked := by
  rw [isLocked_iff, portOf_modPort_same]

theorem portCounted_stays (h : (f (portOf s.trunk p)).lock = .locked ↔ (portOf s.trunk p).lock = .locked) :
    portCounted p f s = s.modTrunk (modPort p f) :=
  lockMoved_same ((modPort_sameRoles h).isLocked p).symm

theorem portCounted_moves (h : ¬((f (portOf s.trunk p)).lock = .locked ↔ (portOf s.trunk p).lock = .locked)) :
    portCounted p f s = linkMoved s.trunk p (s.modTrunk (modPort p f)) := by
  refine lockMoved_moved fun e => h ?_
  have := Bool.eq_iff_iff.1 e.symm
  rwa [State.modTrunk_trunk, isLocked_counted, isLocked_iff] at this

theorem portCounted_trunk : (portCounted p f s).trunk = buffersDropped s.trunk (modPort p f s.trunk) := by
  by_cases h : (f (portOf s.trunk p)).lock = .locked ↔ (portOf s.trunk p).lock = .locked
  · rw [portCounted_stays p f s h, buffersDropped_same (modPort_sameRoles h)]
    rfl
  · rw [portCounted_moves p f s h, linkMoved_trunk]
    rfl

theorem portCounted_only : Only roleBlocks s (portCounted p f s) :=
  ((modTrunk_only s _).mono (by decide)).trans (lockMoved_only ..)

theorem portCounted_portsOnly : PortsOnly s.trunk (portCounted p f s).trunk := by
  rw [portCounted_trunk]
  exact (modPort_portsOnly p f _).trans (buffersDropped_portsOnly ..)

theorem portCounted_content (q : Port) : content (portCounted p f s).trunk q = content (modPort p f s.trunk) q := by
  rw [portCounted_trunk, (buffersDropped_sameRoles ..).content]

/-- R12: each port afterwards: counted or as it was, its buffer discarded where its output stops being FORWARDED. -/
theorem portOf_portCounted (q : Port) : portOf (portCounted p f s).trunk q =
    { portOf (modPort p f s.trunk) q with
      buffer := if content s.trunk q = .forwarded ∧ content (portCounted p f s).trunk q ≠ .forwarded then none
        else (portOf (modPort p f s.trunk) q).buffer } := by
  rw [portCounted_content, portCounted_trunk, portOf_buffersDropped, bufferDropped]
  simp only [Bool.and_eq_true, beq_iff_eq, bne_iff_ne]
  split <;> rfl

end

/-! ### Bad frames (R7, R23) -/

/-- R23: the integrity after a bad frame. -/
def integrityAfterBad (x : PortState) : Integrity :=
  if x.prevBad = true then .persistent
  else if x.curBad = 0 then (if x.integrity = .clean then .isolated else x.integrity)
  else if x.curBad = 1 then (if x.integrity = .persistent then .persistent else .repeated)
  else x.integrity

theorem integrityBad_eq (x : PortState) :
    integrityBad x = { x with integrity := integrityAfterBad x, curBad := min (x.curBad + 1) 2 } := by
  have isolated : raiseTo .isolated x.integrity = if x.integrity = .clean then .isolated else x.integrity := by
    cases x.integrity <;> rfl
  have repeated : raiseTo .repeated x.integrity = if x.integrity = .persistent then .persistent else .repeated := by
    cases x.integrity <;> rfl
  simp only [integrityBad, integrityAfterBad, isolated, repeated]

/-- R7: the lock after a bad frame. -/
def lockAfterBad (x : PortState) : LockState :=
  if x.lock = .noSignal then .noSignal else if x.lock = .lost ∨ 4 ≤ x.badRun + 1 then .lost else x.lock

/-- R7: the run of good frames after a bad one. -/
def goodRunAfterBad (x : PortState) : Nat := if x.lock = .acquiring then 0 else x.goodRun

/-- R7: the run of bad frames after one more. -/
def badRunAfterBad (x : PortState) : Nat :=
  if x.lock = .noSignal then x.badRun else if x.lock = .lost then 4 else min (x.badRun + 1) 4

theorem lockBad_eq (x : PortState) :
    lockBad x = { x with lock := lockAfterBad x, goodRun := goodRunAfterBad x, badRun := badRunAfterBad x } := by
  obtain ⟨lock⟩ := x
  cases lock <;> simp [lockBad, lockAfterBad, goodRunAfterBad, badRunAfterBad]

/-- R7: an input stays LOCKED until its fourth bad frame in a row. -/
theorem lockAfterBad_locked (x : PortState) : lockAfterBad x = .locked ↔ x.lock = .locked ∧ x.badRun + 1 < 4 := by
  unfold lockAfterBad
  by_cases h : x.lock = .locked
  · simp only [h, reduceCtorEq, if_false, false_or, true_and]
    split <;> simp <;> omega
  · split
    · simp [h]
    · split <;> simp [h]

/-- R6, R7, R23: what a missing frame does to its port. -/
theorem countMissing_eq (x : PortState) : countMissing x =
    { x with
      missed := x.missed + 1, integrity := integrityAfterBad x, curBad := min (x.curBad + 1) 2
      lock := lockAfterBad x, goodRun := goodRunAfterBad x, badRun := badRunAfterBad x } := by
  rw [countMissing, integrityBad_eq, lockBad_eq]
  rfl

theorem missingDue_iff (x : PortState) :
    missingDue x = true ↔ x.seen = true ∧ x.lock ≠ .noSignal ∧ x.missed + 2 ≤ x.idlePeriods := by
  simp only [missingDue, Bool.and_eq_true, bne_iff_ne, decide_eq_true_eq, and_assoc]
  rfl

/-- Settles O20: the port counts by `countMissing_eq`, the roles follow by `portCounted`. -/
theorem missingFrameCounted : Obligations.MissingFrameCounted := by
  intro p s hm x due
  have run : exec (.missingFrame p) s = .next (if missingDue x then portCounted p countMissing s else s) := by
    simp [exec, execMissingFrame, act, hm, missFrame, portCounted, x]
  refine ⟨fun hd => ?_, fun hd => ?_⟩
  · rw [run, if_neg (fun h => hd ((missingDue_iff x).1 h))]
  have hs : x.lock ≠ .noSignal := hd.2.1
  have port := portOf_portCounted p countMissing s p
  rw [portOf_modPort_same] at port
  have counted : countMissing x = { portOf (portCounted p countMissing s).trunk p with buffer := x.buffer } := by
    rw [port, countMissing_eq]
  have moves : (countMissing x).lock = .locked ↔ x.lock = .locked ∧ x.badRun + 1 < 4 := by
    rw [countMissing_eq]
    exact lockAfterBad_locked x
  refine ⟨portCounted p countMissing s, by rw [run, if_pos ((missingDue_iff x).2 hd)], portCounted_only ..,
    portCounted_portsOnly .., ?_, fun hb => ?_, fun hl hb => ?_⟩
  · rw [port]
    simp only [countMissing_eq]
    exact ⟨rfl, rfl, if_neg hs, if_neg hs, rfl, rfl, rfl⟩
  · have stays := portCounted_stays p countMissing s (moves.trans ⟨And.left, fun h => ⟨h, hb h⟩⟩)
    rw [stays]
    exact ⟨modTrunk_only s _, portOf_modPort_other ..⟩
  · have leaves := portCounted_moves p countMissing s fun h => by
      have := (moves.1 (h.2 hl)).2
      omega
    refine ⟨s.modTrunk (modPort p countMissing), modTrunk_only s _, ?_, leaves⟩
    exact modPort_congr (f := countMissing) counted

end Sys2Proof.Machine
end

section
/-! SUPPORT. Frames that arrive: the input they move (O18). -/

namespace Sys2Proof.Machine

open Sys2Proof

/-! ### Good and bad headers (R5, R7, R22, R23) -/

/-- R7: the lock after a good frame. -/
def lockAfterGood (x : PortState) : LockState :=
  if x.lock = .locked ∨ (x.lock = .acquiring ∧ 8 ≤ x.goodRun + 1) then .locked else .acquiring

/-- R7: the run of good frames after one more. -/
def goodRunAfterGood (x : PortState) : Nat :=
  if x.lock = .acquiring then min (x.goodRun + 1) 8 else if x.lock = .locked then x.goodRun else 1

theorem lockGood_eq (x : PortState) :
    lockGood x = { x with lock := lockAfterGood x, goodRun := goodRunAfterGood x, badRun := 0 } := by
  obtain ⟨lock⟩ := x
  cases lock <;> simp [lockGood, lockAfterGood, goodRunAfterGood]

theorem countFrame_good (x : PortState) : countFrame true x =
    { x with
      seen := true, idlePeriods := 0, missed := 0
      lock := lockAfterGood x, goodRun := goodRunAfterGood x, badRun := 0 } := by
  rw [countFrame, if_pos rfl, lockGood_eq]
  rfl

theorem countFrame_bad (x : PortState) : countFrame false x =
    { x with
      seen := true, idlePeriods := 0, missed := 0, badHeaders := min (x.badHeaders + 1) 65535
      integrity := integrityAfterBad x, curBad := min (x.curBad + 1) 2
      lock := lockAfterBad x, goodRun := goodRunAfterBad x, badRun := badRunAfterBad x } := by
  rw [countFrame, if_neg (by simp), lockBad_eq, integrityBad_eq]
  rfl

/-- R6, R7: any arriving frame restarts the wait for the next. -/
theorem countFrame_restarts (good : Bool) (x : PortState) :
    (countFrame good x).seen = true ∧ (countFrame good x).idlePeriods = 0 ∧ (countFrame good x).missed = 0 := by
  cases good with
  | false =>
    rw [countFrame_bad]
    exact ⟨rfl, rfl, rfl⟩
  | true =>
    rw [countFrame_good]
    exact ⟨rfl, rfl, rfl⟩

/-! ### The forwarding buffer (R3, R13) -/

theorem enterBuffer_eq (p : Port) (f : WireFrame) (s : State) : enterBuffer p f s = s.modTrunk (modPort (other p) fun x =>
    { x with buffer := if content s.trunk (other p) = .forwarded then some f else x.buffer }) := by
  unfold enterBuffer
  split
  · rfl
  · exact (modTrunk_self (modPort_self rfl)).symm

theorem enterBuffer_content (p : Port) (f : WireFrame) (s : State) (q : Port) :
    content (enterBuffer p f s).trunk q = content s.trunk q := by
  rw [enterBuffer_eq]
  exact (modPort_sameRoles (p := other p) Iff.rfl).content q

theorem portOf_modPort_opposite (p : Port) (f : PortState → PortState) (t : Trunk) :
    portOf (modPort (other p) f t) p = portOf t p := by cases p <;> rfl

/-- R12, R13: no frame is forwarded from an input that is not LOCKED. -/
theorem enterBuffer_unlocked {p : Port} {s : State} (h : isLocked s.trunk p = false) (f : WireFrame) :
    enterBuffer p f s = s := by
  have hc : content s.trunk (other p) ≠ .forwarded := fun hc => by
    have := ((content_forwarded_iff _ _).1 hc).2.2
    rw [other_other, h] at this
    exact absurd this (by decide)
  rw [enterBuffer, if_neg hc]

/-! ### An arriving frame -/

section
variable (p : Port) (f : WireFrame) (s : State)

/-- R8 to R19: what an arriving frame does once its input has moved. -/
def frameTaken : State :=
  if headerGood f && isLocked s.trunk p then
    if isIdle f then enterBuffer p f (judgeConflict f s) else readFrame p f s
  else enterBuffer p f s

theorem portCounted_member (g : PortState → PortState) : isMember (portCounted p g s).trunk = isMember s.trunk :=
  ((modPort_held s p g).trans (lockMoved_steady ..).toHeld).member

theorem arrive_eq : arrive p f s = frameTaken p f (portCounted p (countFrame (headerGood f)) s) := rfl

theorem exec_arrival (h : isMember s.trunk = true) : exec (.frameArrival p f) s = .next (arrive p f s) := by
  simp [exec, execFrameArrival, h]

/-- R7: the input that the frame leaves is the one that its count made. -/
theorem arrive_input : InputKept (countFrame (headerGood f) (portOf s.trunk p)) (portOf (arrive p f s).trunk p) := by
  have moved := (lockMoved_steady s.trunk p (s.modTrunk (modPort p (countFrame (headerGood f))))).input p
  rw [State.modTrunk_trunk, portOf_modPort_same] at moved
  exact moved.trans ((arrive_steady p f s).input p)

theorem arrive_input_other : InputKept (portOf s.trunk (other p)) (portOf (arrive p f s).trunk (other p)) := by
  have moved := (lockMoved_steady s.trunk p (s.modTrunk (modPort p (countFrame (headerGood f))))).input (other p)
  rw [State.modTrunk_trunk, portOf_modPort_other] at moved
  exact moved.trans ((arrive_steady p f s).input (other p))

variable {p f s}

/-- R5, R7: a good header on an input that it leaves not LOCKED moves that input alone. -/
theorem arrive_acquiring (hg : headerGood f = true) (hl : lockAfterGood (portOf s.trunk p) ≠ .locked) :
    arrive p f s = s.modTrunk (modPort p (countFrame true)) := by
  have unlocked : (portOf s.trunk p).lock ≠ .locked := fun h => hl (by simp [lockAfterGood, h])
  have counted : (countFrame true (portOf s.trunk p)).lock ≠ .locked := by rwa [countFrame_good]
  have closed : isLocked (s.modTrunk (modPort p (countFrame true))).trunk p = false := by
    rw [State.modTrunk_trunk, Bool.eq_false_iff, ne_eq, isLocked_counted]
    exact counted
  rw [arrive_eq, hg, portCounted_stays p _ s ⟨fun h => absurd h counted, fun h => absurd h unlocked⟩, frameTaken, hg,
    closed]
  exact enterBuffer_unlocked closed f

/-- R7: a good frame on an input that has been told of it moves the input no further. -/
theorem countFrame_again {x : PortState} (hl : x.lock = .locked) (hs : x.seen = true) (hi : x.idlePeriods = 0)
    (hm : x.missed = 0) (hb : x.badRun = 0) : countFrame true x = x := by
  cases x
  simp only at hl hs hi hm hb
  subst hl hs hi hm hb
  rfl

/-- Log 16: a good frame that leaves its input LOCKED is then taken as on the LOCKED input. -/
theorem arrive_relocked (hg : headerGood f = true) (hl : lockAfterGood (portOf s.trunk p) = .locked) :
    arrive p f (portCounted p (countFrame true) s) = arrive p f s := by
  have moved := (lockMoved_steady s.trunk p (s.modTrunk (modPort p (countFrame true)))).input p
  rw [State.modTrunk_trunk, portOf_modPort_same, countFrame_good] at moved
  have same : countFrame true (portOf (portCounted p (countFrame true) s).trunk p) =
      portOf (portCounted p (countFrame true) s).trunk p :=
    countFrame_again (moved.lock.trans hl) moved.seen moved.idlePeriods moved.missed moved.badRun
  rw [arrive_eq, arrive_eq, hg, portCounted_stays p _ _ (by rw [same]), modTrunk_self (modPort_self same)]

theorem exec_relocked (hm : isMember s.trunk = true) (hg : headerGood f = true)
    (hl : lockAfterGood (portOf s.trunk p) = .locked) :
    exec (.frameArrival p f) s = exec (.frameArrival p f) (portCounted p (countFrame true) s) := by
  rw [exec_arrival p f s hm, exec_arrival p f _ ((portCounted_member ..).trans hm), arrive_relocked hg hl]

/-- R7: a port whose eighth good frame in a row completes its lock. -/
def lockCompleted (x : PortState) : PortState :=
  { x with seen := true, idlePeriods := 0, missed := 0, badRun := 0, lock := .locked, goodRun := 8 }

theorem portCounted_completes (ha : (portOf s.trunk p).lock = .acquiring) (h8 : 8 ≤ (portOf s.trunk p).goodRun + 1) :
    portCounted p (countFrame true) s =
      linkMoved s.trunk p (s.modTrunk (modPort p fun _ => lockCompleted (portOf s.trunk p))) := by
  have counted : countFrame true (portOf s.trunk p) = lockCompleted (portOf s.trunk p) := by
    have run : goodRunAfterGood (portOf s.trunk p) = 8 := by
      rw [goodRunAfterGood, if_pos ha]
      omega
    rw [countFrame_good, run, lockAfterGood, if_pos (.inr ⟨ha, h8⟩)]
    rfl
  rw [portCounted_moves p _ s (by rw [counted, ha]; simp [lockCompleted])]
  exact congrArg (linkMoved s.trunk p) (modTrunk_congr (modPort_congr counted))

/-- R5, R7: a bad header is counted, and the frame is forwarded if its input still is. -/
theorem arrive_bad (hb : headerGood f = false) :
    arrive p f s = enterBuffer p f (portCounted p (countFrame false) s) := by
  rw [arrive_eq, hb, frameTaken, hb]
  rfl

/-- R5, R7, R22, R23: what a bad header does, whatever the lock. -/
theorem arrive_bad_ports (hb : headerGood f = false) :
    portOf (arrive p f s).trunk p = { countFrame false (portOf s.trunk p) with
      buffer := if content s.trunk p = .forwarded ∧ content (arrive p f s).trunk p ≠ .forwarded then none
        else (portOf s.trunk p).buffer } ∧
    portOf (arrive p f s).trunk (other p) = { portOf s.trunk (other p) with
      buffer := if content (arrive p f s).trunk (other p) = .forwarded then some f
        else if content s.trunk (other p) = .forwarded then none else (portOf s.trunk (other p)).buffer } := by
  have port := portOf_portCounted p (countFrame false) s
  have own := port p
  have opposite := port (other p)
  rw [portOf_modPort_same, countFrame_bad] at own
  rw [portOf_modPort_other] at opposite
  simp only [arrive_bad hb, enterBuffer_content]
  rw [enterBuffer_eq, State.modTrunk_trunk, portOf_modPort_opposite, portOf_modPort_same, own, opposite, countFrame_bad]
  refine ⟨rfl, ?_⟩
  by_cases h : content (portCounted p (countFrame false) s).trunk (other p) = .forwarded <;> simp [h]

/-- R12, R24: a bad header that loses the input has the roles recomputed and reported, and enters no buffer. -/
theorem arrive_lost (hb : headerGood f = false) (hl : (portOf s.trunk p).lock = .locked)
    (hr : 4 ≤ (portOf s.trunk p).badRun + 1) :
    arrive p f s = linkMoved s.trunk p (s.modTrunk (modPort p (countFrame false))) := by
  have lost : ¬((countFrame false (portOf s.trunk p)).lock = .locked ↔ (portOf s.trunk p).lock = .locked) := by
    intro h
    have := h.2 hl
    rw [countFrame_bad] at this
    have := ((lockAfterBad_locked _).1 this).2
    omega
  have unlocked : isLocked (portCounted p (countFrame false) s).trunk p = false := by
    rw [Bool.eq_false_iff, ne_eq, portCounted_trunk, (buffersDropped_sameRoles ..).isLocked, isLocked_counted]
    exact fun h => lost ⟨fun _ => hl, fun _ => h⟩
  rw [arrive_bad hb, enterBuffer_unlocked unlocked, portCounted_moves p _ s lost]

theorem arrive_bad_only (hb : headerGood f = false) : Only roleBlocks s (arrive p f s) := by
  rw [arrive_bad hb, enterBuffer_eq]
  exact (portCounted_only ..).trans ((modTrunk_only ..).mono (by decide))

theorem arrive_bad_portsOnly (hb : headerGood f = false) : PortsOnly s.trunk (arrive p f s).trunk := by
  rw [arrive_bad hb, enterBuffer_eq, State.modTrunk_trunk]
  exact (portCounted_portsOnly ..).trans (modPort_portsOnly ..)

/-- R7: a bad header that leaves the input LOCKED, or not LOCKED, as it was changes the Trunk Interface alone. -/
theorem arrive_bad_stays (hb : headerGood f = false)
    (h : (portOf s.trunk p).lock = .locked ↔ (countFrame false (portOf s.trunk p)).lock = .locked) :
    Only [.trunk] s (arrive p f s) := by
  rw [arrive_bad hb, portCounted_stays p _ s h.symm, enterBuffer_eq]
  exact (modTrunk_only ..).trans (modTrunk_only ..)

end

/-- Settles O18: a good header by `arrive_acquiring` and `arrive_relocked`, a bad one by `arrive_bad_ports` and
`arrive_lost`. -/
theorem arrivalMovesLock : Obligations.ArrivalMovesLock := by
  intro p f s hm
  refine ⟨arrive p f s, exec_arrival p f s hm, ?_⟩
  intro x y z moved
  have input : InputKept (countFrame (headerGood f) x) y := arrive_input p f s
  obtain ⟨seen, idle, missed⟩ := countFrame_restarts (headerGood f) x
  refine ⟨(arrive_input_other p f s).lock, input.seen.trans seen, input.idlePeriods.trans idle,
    input.missed.trans missed, fun hg => ?_, fun hb => ?_⟩
  · rw [hg, countFrame_good] at input
    have lock : y.lock = lockAfterGood x := input.lock
    have goodRun : y.goodRun = goodRunAfterGood x := input.goodRun
    refine ⟨input.badRun, ?_, fun hl => ?_, fun ha h8 => ?_⟩
    · rw [lock, goodRun]
      cases hx : x.lock <;> simp [lockAfterGood, goodRunAfterGood, hx]
    · rw [arrive_acquiring hg (lock ▸ hl), lock, goodRun]
      exact modTrunk_congr (modPort_congr (countFrame_good x))
    · exact (exec_relocked hm hg (if_pos (.inr ⟨ha, h8⟩))).trans
        (congrArg (exec (.frameArrival p f)) (portCounted_completes ha h8))
  · obtain ⟨own, opposite⟩ := arrive_bad_ports (p := p) (f := f) (s := s) hb
    rw [hb, countFrame_bad] at input
    rw [countFrame_bad] at own
    have lock : y.lock = lockAfterBad x := input.lock
    have goodRun : y.goodRun = goodRunAfterBad x := input.goodRun
    have badRun : y.badRun = badRunAfterBad x := input.badRun
    have integrity : y.integrity = integrityAfterBad x := congrArg PortState.integrity own
    have buffer := congrArg PortState.buffer own
    have counted : countFrame false x = { y with buffer := x.buffer } := by
      rw [countFrame_bad]
      exact (congrArg (fun u : PortState => { u with buffer := x.buffer }) own).symm
    refine ⟨arrive_bad_only hb, arrive_bad_portsOnly hb, fun hl h4 => ?_, ?_, ?_, ?_, ?_, opposite, fun h => ?_⟩
    · rw [arrive_lost hb hl h4]
      exact congrArg (linkMoved s.trunk p) (modTrunk_congr (modPort_congr counted))
    · rw [lock, goodRun, badRun, integrity, buffer]
      exact own
    · rw [lock, goodRun, badRun]
      cases hx : x.lock <;> simp [lockAfterBad, goodRunAfterBad, badRunAfterBad, hx]
    · exact integrity
    · exact buffer
    · refine arrive_bad_stays hb (h.trans ?_)
      rw [lock, countFrame_bad]

end Sys2Proof.Machine
end

section
/-! SUPPORT. What a frame makes of headship and ring mode, of its marker and of its cell (O19, O21, O22). -/

namespace Sys2Proof.Machine

open Sys2Proof

theorem port_cases (p q : Port) : q = p ∨ q = other p := by cases p <;> cases q <;> simp [other]

/-! ### Counts that no role reads

A good frame on a LOCKED input restarts its port's counts. The roles, reports and prunings that follow read none of them, so
they come out the same before the count and after it. -/

/-- A change of a port that neither its lock nor its forwarding buffer takes part in. -/
structure CountOnly (f : PortState → PortState) : Prop where
  lock : ∀ x, (f x).lock = x.lock
  buffer : ∀ x b, f { x with buffer := b } = { f x with buffer := b }

section
variable {f : PortState → PortState} (hf : CountOnly f) (p : Port) (s : State)
include hf

theorem CountOnly.sameRoles (t : Trunk) : SameRoles t (modPort p f t) := modPort_sameRoles (by rw [hf.lock])

theorem CountOnly.portLock (t : Trunk) (q : Port) : (portOf (modPort p f t) q).lock = (portOf t q).lock := by
  cases p with
  | east => cases q with
    | east => exact hf.lock _
    | west => rfl
  | west => cases q with
    | east => rfl
    | west => exact hf.lock _

theorem createRaw_count (kind : CellKind) (dest : Byte) (tag : Option Byte) (payload : List Byte) :
    createRaw kind dest tag payload (s.modTrunk (modPort p f)) =
      ((createRaw kind dest tag payload s).1.modTrunk (modPort p f), (createRaw kind dest tag payload s).2) := by
  have roles := hf.sameRoles p s.trunk
  unfold createRaw
  cases kindClass kind with
  | none => rfl
  | some k =>
    simp only [State.modTrunk_trunk, State.modTrunk_cells, modPort_addr, roles.inserts, makeCell]
    split
    · rfl
    · split
      · rfl
      · split <;> split <;> rfl

theorem bufferReturned_count : bufferReturned (s.modTrunk (modPort p f)) = (bufferReturned s).modTrunk (modPort p f) := by
  cases hx : s.cells.exhausted with
  | false => rw [bufferReturned_none hx, bufferReturned_none (s := s.modTrunk (modPort p f)) hx]
  | true =>
    rw [bufferReturned_some hx, bufferReturned_some (s := s.modTrunk (modPort p f)) hx]
    refine Eq.trans ?_ (apply_ite (State.modTrunk · (modPort p f)) ..).symm
    exact if_congr Iff.rfl (congrArg Prod.fst (createRaw_count hf p (reportTaken s) ..)) rfl

theorem createCell_count (kind : CellKind) (dest : Byte) (tag : Option Byte) (payload : List Byte) :
    (createCell kind dest tag payload (s.modTrunk (modPort p f))).1 =
      (createCell kind dest tag payload s).1.modTrunk (modPort p f) := by
  have roles := hf.sameRoles p s.trunk
  unfold createCell
  simp only [createRaw_count hf, State.modTrunk_trunk, roles.inserts]
  split
  · exact bufferReturned_count hf p _
  · rfl

theorem report_count (k : EventKind) (fields : List Byte) :
    report k fields (s.modTrunk (modPort p f)) = (report k fields s).modTrunk (modPort p f) := by
  unfold report
  dsimp only
  rw [show (s.modTrunk (modPort p f)).modMgmt (fun m => { m with sticky := setSticky k m.sticky }) =
    (s.modMgmt fun m => { m with sticky := setSticky k m.sticky }).modTrunk (modPort p f) from rfl, State.modTrunk_mgmt]
  split
  · exact createCell_count hf p _ ..
  · rfl

theorem prune_count (cw ccw : Bool) :
    prune cw ccw (s.modTrunk (modPort p f)) = (prune cw ccw s).modTrunk (modPort p f) := by
  rw [prune_eq, prune_eq, State.modTrunk_cells]
  split
  · rfl
  · exact bufferReturned_count hf p (s.modCells (prunedCells cw ccw))

theorem buffersDropped_count (old t : Trunk) :
    buffersDropped (modPort p f old) (modPort p f t) = modPort p f (buffersDropped old t) := by
  refine ((modPort_portsOnly p f t).trans (buffersDropped_portsOnly ..)).eq_of_ports
    ((buffersDropped_portsOnly old t).trans (modPort_portsOnly ..)) fun q => ?_
  rw [portOf_buffersDropped, bufferDropped, (hf.sameRoles p old).content, (hf.sameRoles p t).content]
  rcases port_cases p q with rfl | rfl
  · rw [portOf_modPort_same, portOf_modPort_same, portOf_buffersDropped, bufferDropped]
    split
    · exact (hf.buffer _ none).symm
    · rfl
  · rw [portOf_modPort_other, portOf_modPort_other, portOf_buffersDropped, bufferDropped]

theorem rolesChanged_count (old : Trunk) :
    rolesChanged (modPort p f old) (s.modTrunk (modPort p f)) = (rolesChanged old s).modTrunk (modPort p f) := by
  have dropped : (s.modTrunk (modPort p f)).modTrunk (buffersDropped (modPort p f old)) =
      (s.modTrunk (buffersDropped old)).modTrunk (modPort p f) :=
    congrArg (fun t => { s with trunk := t }) (buffersDropped_count hf p old s.trunk)
  rw [rolesChanged_eq, rolesChanged_eq, dropped]
  simp only [State.modTrunk_trunk, (hf.sameRoles p old).inserts, (hf.sameRoles p s.trunk).inserts]
  split
  · rfl
  · exact prune_count hf p _ ..

end

/-! ### A second head (R11) -/

section
variable {f : WireFrame} {s : State}

theorem judgeConflict_quiet (h : activeHead s.trunk = false ∨ headFlag f = false ∨ originator f = s.trunk.addr) :
    judgeConflict f s = s := by
  unfold judgeConflict
  rcases h with h | h | h <;> simp [h]

theorem judgeConflict_lower (ha : activeHead s.trunk = true) (hh : headFlag f = true)
    (hlt : (originator f).toNat < s.trunk.addr.toNat) :
    judgeConflict f s = reportConflict (originator f) (yieldHead s) := by
  have hne : originator f ≠ s.trunk.addr := fun e => by simp [e] at hlt
  simp [judgeConflict, ha, hh, hne, hlt]

theorem judgeConflict_told (ha : activeHead s.trunk = true) (hh : headFlag f = true)
    (hlt : s.trunk.addr.toNat < (originator f).toNat) (hr : s.trunk.conflictReported = true) :
    judgeConflict f s = s := by
  simp [judgeConflict, ha, hh, Nat.not_lt.2 hlt.le, hr]

theorem judgeConflict_higher (ha : activeHead s.trunk = true) (hh : headFlag f = true)
    (hlt : s.trunk.addr.toNat < (originator f).toNat) (hr : s.trunk.conflictReported = false) :
    judgeConflict f s =
      reportConflict (originator f) (s.modTrunk fun t => { t with conflictReported := true }) := by
  have hne : originator f ≠ s.trunk.addr := fun e => by simp [e] at hlt
  simp [judgeConflict, ha, hh, hne, Nat.not_lt.2 hlt.le, hr]

end

theorem yieldHead_only (s : State) : Only [.trunk, .sp, .cells, .mgmt] s (yieldHead s) :=
  (((modTrunk_only s _).mono (by decide)).trans ((modSp_only _ _).mono (by decide))).trans
    ((rolesChanged_only ..).mono (by decide))

theorem yieldHead_sp (s : State) : (yieldHead s).sp = { s.sp with ref := .notUsed, schedule := [] } :=
  (rolesChanged_only ..).keep .sp (by decide)

/-- R11: the node that yields keeps its head strap and is no active head. -/
theorem yieldHead_roles (s : State) (h : s.trunk.headStrap = true) :
    (yieldHead s).trunk.yielded = true ∧ activeHead (yieldHead s).trunk = false ∧
      roleOf (yieldHead s).trunk = .headYielded := by
  have roles := rolesChanged_sameRoles s.trunk
    ((s.modTrunk fun t => { t with yielded := true }).modSp fun u => { u with ref := .notUsed, schedule := [] })
  have yielded : (yieldHead s).trunk.yielded = true := roles.yielded
  exact ⟨yielded, by simp [activeHead, yielded], roleOf_headYielded (roles.headStrap.trans h) yielded⟩

theorem report_trunk (k : EventKind) (fields : List Byte) (s : State) : (report k fields s).trunk = s.trunk :=
  (report_only ..).keep .trunk (by decide)

theorem report_sp (k : EventKind) (fields : List Byte) (s : State) : (report k fields s).sp = s.sp :=
  (report_only ..).keep .sp (by decide)

/-- R11: `judgeConflict` judges as the rule says. -/
theorem conflictJudged (f : WireFrame) (s : State) : ConflictJudged f s (judgeConflict f s) where
  quiet := judgeConflict_quiet
  lower ha hh hlt := by
    obtain ⟨_, strap, _⟩ := (activeHead_iff _).1 ha
    obtain ⟨yielded, head, role⟩ := yieldHead_roles s strap
    have told : reportConflict (originator f) (yieldHead s) =
        report .headConflict ([originator f, 3] ++ epochBytes s.sp.epoch) (yieldHead s) := by
      rw [reportConflict, role, epochField, yieldHead_sp]
      rfl
    rw [judgeConflict_lower ha hh hlt, told, report_trunk, report_sp, yieldHead_sp]
    exact ⟨rfl, yielded, head, role, rfl, (report_flags ..).2,
      (yieldHead_only s).trans ((report_only ..).mono (by decide))⟩
  told := judgeConflict_told
  higher ha hh hlt hr := by
    rw [judgeConflict_higher ha hh hlt hr]
    exact ⟨rfl, (report_flags ..).2, ((modTrunk_only s _).mono (by decide)).trans ((report_only ..).mono (by decide))⟩

/-! ### The ring mode (R10) -/

section
variable {f : WireFrame} {s : State}

theorem judgeMode_quiet (h : activeHead s.trunk = false ∨ s.trunk.mode = modeOf f) : judgeMode f s = s := by
  unfold judgeMode
  rcases h with h | h <;> simp [h]

/-- R10, R12: the active head in the mode that the frame gives, its roles recomputed. -/
def modeTaken (f : WireFrame) (s : State) : State :=
  rolesChanged s.trunk { s with trunk := { s.trunk with mode := modeOf f } }

theorem modeTaken_sameRoles : SameRoles { s.trunk with mode := modeOf f } (modeTaken f s).trunk :=
  rolesChanged_sameRoles s.trunk { s with trunk := { s.trunk with mode := modeOf f } }

theorem judgeMode_moved (ha : activeHead s.trunk = true) (hm : s.trunk.mode ≠ modeOf f) :
    judgeMode f s = report .linkChange (linkFields 0xFF (modeTaken f s).trunk) (modeTaken f s) := by
  rw [judgeMode, if_pos (by simp [ha, hm])]
  rfl

theorem modeTaken_steady : Steady s (modeTaken f s) :=
  (modPorts_steady s (fun t => { t with mode := modeOf f }) rfl rfl id (.refl _) (.refl _)).trans
    (rolesChanged_steady ..)

theorem modeTaken_active : activeHead (modeTaken f s).trunk = activeHead s.trunk := modeTaken_sameRoles.activeHead

end

/-- R10: `judgeMode` judges as the rule says. -/
theorem modeJudged (f : WireFrame) (s : State) : ModeJudged f s (judgeMode f s) where
  quiet := judgeMode_quiet
  moved ha hm := by
    have active : activeHead (modeTaken f s).trunk = true := modeTaken_active.trans ha
    have mode : (modeTaken f s).trunk.mode = modeOf f := modeTaken_sameRoles.mode
    have east : (modeTaken f s).trunk.east.lock = s.trunk.east.lock := (modeTaken_steady.input .east).lock
    have west : (modeTaken f s).trunk.west.lock = s.trunk.west.lock := (modeTaken_steady.input .west).lock
    have role : roleCode (roleOf (modeTaken f s).trunk) = if headPassed f = true then 1 else 2 := by
      rw [roleOf_active active, mode, modeOf]
      cases headPassed f <;> rfl
    rw [judgeMode_moved ha hm, report_trunk]
    refine ⟨fun u hu => ?_, mode, active, (report_flags ..).2, ?_⟩
    · rw [linkFields, east, west, role, hu]
      rfl
    · exact ((modTrunk_only s fun t => { t with mode := modeOf f }).mono (by decide)).trans
        ((rolesChanged_only ..).trans ((report_only ..).mono (by decide)))

/-- R10: what the judgement of the ring mode leaves of the headship. -/
theorem judgeMode_head (f : WireFrame) (s : State) :
    activeHead (judgeMode f s).trunk = activeHead s.trunk ∧
    (judgeMode f s).trunk.conflictReported = s.trunk.conflictReported ∧
    (activeHead s.trunk = true → (judgeMode f s).trunk.mode = modeOf f) := by
  by_cases h : activeHead s.trunk = false ∨ s.trunk.mode = modeOf f
  · rw [judgeMode_quiet h]
    exact ⟨rfl, rfl, fun ha => h.resolve_left (by simp [ha])⟩
  · obtain ⟨ha, hm⟩ := not_or.1 h
    rw [judgeMode_moved (by simpa using ha) hm, report_trunk]
    have told : (modeTaken f s).trunk.conflictReported = s.trunk.conflictReported := by
      rw [modeTaken, rolesChanged_trunk, buffersDropped_eq]
    exact ⟨modeTaken_active, told, fun _ => modeTaken_sameRoles.mode⟩

/-! ### A node that a frame has judged -/

/-- R10, R11: a head at rest is not moved. -/
theorem judged_atRest {f : WireFrame} {s : State} (h : HeadAtRest f s.trunk) :
    judgeMode f (judgeConflict f s) = s := by
  cases ha : activeHead s.trunk with
  | false => rw [judgeConflict_quiet (.inl ha), judgeMode_quiet (.inl ha)]
  | true =>
    obtain ⟨mode, rival⟩ := h ha
    have quiet : judgeConflict f s = s := by
      cases hh : headFlag f with
      | false => exact judgeConflict_quiet (.inr (.inl hh))
      | true =>
        rcases rival hh with own | ⟨higher, told⟩
        · exact judgeConflict_quiet (.inr (.inr own))
        · exact judgeConflict_told ha hh higher told
    rw [quiet, judgeMode_quiet (.inr mode)]

/-- R10, R11: a judged node is at rest. -/
theorem headAtRest_judged (f : WireFrame) (s : State) : HeadAtRest f (judgeMode f (judgeConflict f s)).trunk := by
  obtain ⟨active, told, mode⟩ := judgeMode_head f (judgeConflict f s)
  have judged := conflictJudged f s
  have addr : (judgeMode f (judgeConflict f s)).trunk.addr = s.trunk.addr :=
    ((judgeConflict_steady f s).trans (judgeMode_steady f _)).addr
  intro ha
  rw [active] at ha
  refine ⟨mode ha, fun hh => ?_⟩
  rw [addr, told]
  by_cases hs : activeHead s.trunk = true
  · rcases lt_trichotomy (originator f).toNat s.trunk.addr.toNat with lt | eq | gt
    · rw [(judged.lower hs hh lt).2.2.1] at ha
      exact absurd ha (by decide)
    · exact .inl (BitVec.eq_of_toNat_eq eq)
    · refine .inr ⟨gt, ?_⟩
      cases hr : s.trunk.conflictReported with
      | true => rw [judged.told hs hh gt hr, hr]
      | false => rw [(judged.higher hs hh gt hr).1, report_trunk]
  · rw [judged.quiet (.inl (by simpa using hs))] at ha
    exact absurd ha hs

end Sys2Proof.Machine
end

section
/-! SUPPORT. Good frames on a LOCKED input: judged before they act (O21), read (O19), their markers taken (O22). -/

namespace Sys2Proof.Machine

open Sys2Proof

theorem modPort_conflictReported (p : Port) (g : PortState → PortState) (t : Trunk) :
    (modPort p g t).conflictReported = t.conflictReported := by cases p <;> rfl

/-! ### The judgements do not read the counts -/

section
variable {g : PortState → PortState} (hg : CountOnly g) (p : Port) (f : WireFrame) (s : State)
include hg

theorem linkFields_count (port : Byte) (t : Trunk) : linkFields port (modPort p g t) = linkFields port t := by
  have east : (modPort p g t).east.lock = t.east.lock := hg.portLock p t .east
  have west : (modPort p g t).west.lock = t.west.lock := hg.portLock p t .west
  simp only [linkFields, (hg.sameRoles p t).content, (hg.sameRoles p t).roleOf, east, west]

theorem reportConflict_count (rival : Byte) :
    reportConflict rival (s.modTrunk (modPort p g)) = (reportConflict rival s).modTrunk (modPort p g) := by
  rw [reportConflict, State.modTrunk_trunk, (hg.sameRoles p s.trunk).roleOf]
  exact report_count hg p s ..

theorem yieldHead_count : yieldHead (s.modTrunk (modPort p g)) = (yieldHead s).modTrunk (modPort p g) := by
  refine Eq.trans ?_ (rolesChanged_count hg p _ s.trunk)
  cases p <;> rfl

theorem modeTaken_count : modeTaken f (s.modTrunk (modPort p g)) = (modeTaken f s).modTrunk (modPort p g) := by
  refine Eq.trans ?_ (rolesChanged_count hg p _ s.trunk)
  cases p <;> rfl

theorem judgeConflict_count :
    judgeConflict f (s.modTrunk (modPort p g)) = (judgeConflict f s).modTrunk (modPort p g) := by
  unfold judgeConflict
  simp only [State.modTrunk_trunk, (hg.sameRoles p s.trunk).activeHead, modPort_addr, modPort_conflictReported]
  split
  · split
    · rw [yieldHead_count hg]
      exact reportConflict_count hg p _ _
    · split
      · rfl
      · refine Eq.trans ?_ (reportConflict_count hg p _ _)
        cases p <;> rfl
  · rfl

theorem judgeMode_count : judgeMode f (s.modTrunk (modPort p g)) = (judgeMode f s).modTrunk (modPort p g) := by
  by_cases h : activeHead s.trunk = false ∨ s.trunk.mode = modeOf f
  · rw [judgeMode_quiet h, judgeMode_quiet]
    rwa [State.modTrunk_trunk, (hg.sameRoles p s.trunk).activeHead, modPort_mode]
  · obtain ⟨ha, hm⟩ := not_or.1 h
    have ha : activeHead s.trunk = true := by simpa using ha
    rw [judgeMode_moved ha hm, judgeMode_moved, modeTaken_count hg, State.modTrunk_trunk, linkFields_count hg]
    · exact report_count hg p _ ..
    · rwa [State.modTrunk_trunk, (hg.sameRoles p s.trunk).activeHead]
    · rwa [State.modTrunk_trunk, modPort_mode]

end

/-! ### A good frame on a LOCKED input -/

/-- R7: the port of a LOCKED input, told of a good frame. -/
def frameNoted (x : PortState) : PortState := { x with seen := true, idlePeriods := 0, missed := 0, badRun := 0 }

theorem frameNoted_countOnly : CountOnly frameNoted := ⟨fun _ => rfl, fun _ _ => rfl⟩

/-- R8: what an ORIGINATED frame does at a node whose headship and mode it moves no more. -/
def frameRead (p : Port) (f : WireFrame) (s : State) : State :=
  let b := bodyOf f
  let fate := takenCell s.trunk p b
  actOnFrame (frameMarker f) (handedCell fate)
    (enterBuffer p { f with body := some (forwardBody fate b) } (copySlots p b (countBadCell p fate s)))

theorem readFrame_eq (p : Port) (f : WireFrame) (s : State) :
    readFrame p f s = frameRead p f (judgeMode f (judgeConflict f s)) := rfl

section
variable {p : Port} {f : WireFrame} {s : State}

theorem countFrame_locked {x : PortState} (h : x.lock = .locked) : countFrame true x = frameNoted x := by
  cases x
  simp only at h
  subst h
  rfl

theorem arrive_locked (hl : (portOf s.trunk p).lock = .locked) (hg : headerGood f = true) :
    arrive p f s = if isIdle f then enterBuffer p f ((judgeConflict f s).modTrunk (modPort p frameNoted))
      else frameRead p f ((judgeMode f (judgeConflict f s)).modTrunk (modPort p frameNoted)) := by
  have noted : s.modTrunk (modPort p (countFrame true)) = s.modTrunk (modPort p frameNoted) :=
    modTrunk_congr (modPort_congr (countFrame_locked hl))
  have locked : isLocked (s.modTrunk (modPort p frameNoted)).trunk p = true := by
    rw [isLocked_iff, State.modTrunk_trunk, portOf_modPort_same]
    exact hl
  rw [arrive_eq, hg, portCounted_stays p _ s (by rw [countFrame_locked hl]; rfl), noted, frameTaken, hg, locked,
    readFrame_eq, judgeConflict_count frameNoted_countOnly, judgeMode_count frameNoted_countOnly]
  rfl

/-- R3, R13: a counted frame enters the opposite forwarding buffer by the roles of the node that it found. -/
theorem enterBuffer_noted (g : PortState → PortState) (hg : ∀ x, (g x).lock = x.lock) :
    enterBuffer p f (s.modTrunk (modPort p g)) = s.modTrunk fun t =>
      (if content s.trunk (other p) = .forwarded then modPort (other p) fun x => { x with buffer := some f } else id)
        (modPort p g t) := by
  rw [enterBuffer, State.modTrunk_trunk, (modPort_sameRoles (by rw [hg])).content]
  split <;> rfl

theorem isIdle_iff : isIdle f = true ↔ f.kind = 0x5A := by simp [isIdle]

end

/-- Settles O21: `conflictJudged` and `modeJudged` say what the judgements do; by `judgeConflict_count` and
`judgeMode_count` the count of the frame changes nothing in them, and at the node so judged they do nothing more. -/
theorem headshipJudged : Obligations.HeadshipJudged := by
  intro p f s hm hl hg
  refine ⟨fun hk => ⟨judgeConflict f s, conflictJudged f s, ?_⟩, fun hk => ?_⟩
  · rw [exec_arrival p f s hm, arrive_locked hl hg, if_pos (isIdle_iff.2 hk), enterBuffer_noted frameNoted fun _ => rfl]
    rfl
  · have steady := (judgeConflict_steady f s).trans (judgeMode_steady f _)
    have atRest := headAtRest_judged f s
    have member : isMember (judgeMode f (judgeConflict f s)).trunk = true := steady.member.trans hm
    have locked : (portOf (judgeMode f (judgeConflict f s)).trunk p).lock = .locked := (steady.input p).lock.trans hl
    have notIdle : ¬isIdle f = true := fun h => by
      rw [isIdle_iff, hk] at h
      exact absurd h (by decide)
    refine ⟨judgeConflict f s, judgeMode f (judgeConflict f s), conflictJudged f s, modeJudged f _, atRest, member, locked,
      ?_⟩
    rw [exec_arrival p f s hm, exec_arrival p f _ member, arrive_locked hl hg, arrive_locked locked hg, if_neg notIdle,
      if_neg notIdle, judged_atRest atRest]

/-! ### The cell of a frame (R16, R17) -/

section
variable {addr : Byte} {slot : List Byte}

theorem cellFate_bad (h : (readCell slot).2 = false) :
    cellFate addr slot = { stays := false, handed := none, bad := true } := by simp [cellFate, h]

variable {c : Cell} (h : readCell slot = (c, true))
include h

theorem cellFate_own (hs : c.src = addr) : cellFate addr slot = { stays := false, handed := none, bad := false } := by
  simp [cellFate, h, hs]

theorem cellFate_all (hs : c.src ≠ addr) (hd : c.dest = 63) : cellFate addr slot =
    { stays := true, handed := if (kindOf c.kind).isSome then some c else none, bad := false } := by
  simp [cellFate, h, hs, hd]

theorem cellFate_this (hs : c.src ≠ addr) (h63 : c.dest ≠ 63) (hd : c.dest = addr) :
    cellFate addr slot = { stays := false, handed := some c, bad := false } := by
  rw [cellFate, h]
  simp only [Bool.not_true, Bool.false_eq_true, if_false]
  rw [if_neg hs, if_neg h63, if_pos hd]

theorem cellFate_other (hs : c.src ≠ addr) (h63 : c.dest ≠ 63) (hd : c.dest ≠ addr) :
    cellFate addr slot = { stays := true, handed := none, bad := false } := by
  rw [cellFate, h]
  simp only [Bool.not_true, Bool.false_eq_true, if_false]
  rw [if_neg hs, if_neg h63, if_neg hd]

end

theorem kindOf_isSome (b : Byte) : (kindOf b).isSome = decide (b.toNat ≤ 10) := by
  rw [kindOf, Bool.eq_iff_iff, decide_eq_true_iff, Option.isSome_iff_ne_none, ne_eq, List.getElem?_eq_none_iff, not_le]
  exact Nat.lt_succ_iff

theorem ignoresCells_iff {t : Trunk} {p : Port} (hl : (portOf t p).lock = .locked) : ignoresCells t p = true ↔
    p = .east ∧ activeHead t = true ∧ t.mode = .closed ∧ t.west.lock = .locked := by
  simp only [ignoresCells, Bool.and_eq_true, closingHead_iff, isLocked_iff, beq_iff_eq]
  constructor
  · rintro ⟨⟨⟨⟨ha, hc⟩, -⟩, hw⟩, hp⟩
    exact ⟨hp, ha, hc, hw⟩
  · rintro ⟨rfl, ha, hc, hw⟩
    exact ⟨⟨⟨⟨ha, hc⟩, hl⟩, hw⟩, rfl⟩

/-- R71, R76, R150: marker and cell act in one of the orders that are allowed. -/
theorem acted_actOnFrame (marker : Option Epoch) (cell : Option Cell) (s : State) :
    Acted marker cell s (.next (actOnFrame marker cell s)) := by
  cases marker with
  | none => cases cell <;> rfl
  | some e =>
    cases cell with
    | none => rfl
    | some c =>
      show _ ∨ _
      unfold actOnFrame
      by_cases h : Config.markerFirst s.freeCount = true
      · exact .inl (congrArg _ (if_pos h))
      · exact .inr (congrArg _ (if_neg h))

/-- R7, R15, R22: a port whose frame has been noted and copied, its bad cells numbering `n`. -/
def portRead (slots : Vector WireSlot 128) (n : Nat) (x : PortState) : PortState :=
  { x with seen := true, idlePeriods := 0, missed := 0, badRun := 0, copy := some slots, badCells := n }

/-- R8, R15, R17, R22: the node once a frame has been counted, copied and put into the opposite buffer with this body, and
the bad cells of its port number `n`. -/
def frameStored (p : Port) (f : WireFrame) (left : FrameBody) (n : Nat) (s : State) : State := s.modTrunk fun t =>
  (if content s.trunk (other p) = .forwarded then
    modPort (other p) fun x => { x with buffer := some { f with body := some left } }
  else id) (modPort p (portRead (bodyOf f).slots n) t)

/-- The bad cells of a port once a frame's cell has met this fate (R22). -/
def badCellsAfter (fate : Option CellFate) (n : Nat) : Nat :=
  match fate with
  | some x => if x.bad then satAdd n 1 else n
  | none => n

theorem frameStored_eq (p : Port) (f : WireFrame) (left : FrameBody) (fate : Option CellFate) (s : State) :
    enterBuffer p { f with body := some left }
        (copySlots p (bodyOf f) (countBadCell p fate (s.modTrunk (modPort p frameNoted)))) =
      frameStored p f left (badCellsAfter fate (portOf s.trunk p).badCells) s := by
  have stored : copySlots p (bodyOf f) (countBadCell p fate (s.modTrunk (modPort p frameNoted))) =
      s.modTrunk (modPort p (portRead (bodyOf f).slots (badCellsAfter fate (portOf s.trunk p).badCells))) := by
    obtain - | ⟨stays, handed, bad⟩ := fate
    · cases p <;> rfl
    · cases bad <;> cases p <;> rfl
  rw [stored, enterBuffer_noted (portRead _ _) fun _ => rfl]
  rfl

section
variable {p : Port} {f : WireFrame} {s : State}

/-- R8: a frame at rest is read: its body is stored by the fate of its cell, and its marker and the cell handed on act. -/
theorem acted_arrival (hm : isMember s.trunk = true) (hr : HeadAtRest f s.trunk) (hl : (portOf s.trunk p).lock = .locked)
    (hg : headerGood f = true) (hk : f.kind = 0xA5) (fate : Option CellFate) (hf : takenCell s.trunk p (bodyOf f) = fate) :
    Acted (frameMarker f) (handedCell fate)
      (frameStored p f (forwardBody fate (bodyOf f)) (badCellsAfter fate (portOf s.trunk p).badCells) s)
      (exec (.frameArrival p f) s) := by
  have notIdle : ¬isIdle f = true := fun h => by
    rw [isIdle_iff, hk] at h
    exact absurd h (by decide)
  have roles := frameNoted_countOnly.sameRoles p s.trunk
  have taken : takenCell (s.modTrunk (modPort p frameNoted)).trunk p (bodyOf f) = fate := by
    rw [← hf, takenCell, takenCell, ignoresCells, ignoresCells, State.modTrunk_trunk, modPort_addr, roles.closingHead,
      roles.isLocked, roles.isLocked]
  have run : arrive p f s = actOnFrame (frameMarker f) (handedCell fate)
      (frameStored p f (forwardBody fate (bodyOf f)) (badCellsAfter fate (portOf s.trunk p).badCells) s) := by
    rw [arrive_locked hl hg, if_neg notIdle, judged_atRest hr, frameRead]
    simp only [taken]
    rw [frameStored_eq]
  rw [exec_arrival p f s hm, run]
  exact acted_actOnFrame ..

end

/-- Settles O19: `acted_arrival` for each row of R17. -/
theorem framesRead : Obligations.FramesRead := by
  intro p f s hm hr hl hg hk b bad freed read acted ignored
  have h63 : s.trunk.addr ≠ 63 := ((isMember_iff _).1 hm).2
  have arrival := acted_arrival hm hr hl hg hk
  refine ⟨fun h => ?_, fun ho hi => ?_⟩
  · refine arrival none ?_
    have none_taken : ¬(hasCell (bodyOf f) && !ignoresCells s.trunk p) = true := by
      rw [Bool.and_eq_true, Bool.not_eq_true', Bool.eq_false_iff, ne_eq, ignoresCells_iff hl, hasCell, beq_iff_eq]
      exact fun ⟨ho, hi⟩ => h.elim (fun g => g ho) hi
    rw [takenCell, if_neg none_taken]
  have taken : takenCell s.trunk p (bodyOf f) = some (cellFate s.trunk.addr b.cell) := by
    rw [takenCell, if_pos]
    rw [Bool.and_eq_true, Bool.not_eq_true', Bool.eq_false_iff, ne_eq, ignoresCells_iff hl, hasCell, beq_iff_eq]
    exact ⟨ho, hi⟩
  have row := fun fate hf => arrival (some fate) (taken.trans (congrArg some hf))
  refine ⟨fun hb => row _ (cellFate_bad hb), fun c hc => ⟨fun hs => row _ (cellFate_own hc hs), fun hs =>
    ⟨fun hd => ?_, fun hd => row _ (cellFate_this hc hs (hd ▸ h63) hd), fun hn hd => row _ (cellFate_other hc hs hn hd)⟩⟩⟩
  have all := row _ (cellFate_all hc hs hd)
  rw [kindOf_isSome] at all
  simp only [decide_eq_true_eq] at all
  exact all

/-! ### Markers (R31, R33 to R35) -/

/-- Settles O22: the branches of `takeMarker`. -/
theorem markerTaken : Obligations.MarkerTaken := by
  intro e s _
  refine ⟨fun ha hu => ?_, fun ha hu => ?_, fun ha he => ?_, fun ha he => ?_⟩
  · simp [takeMarker, ha, hu]
  · rw [takeMarker, if_pos ha, if_pos (by simp [hu])]
    rfl
  · have epoch : (restartFreeRun s).sp.epoch = some e := by
      unfold restartFreeRun
      split <;> exact he
    rw [takeMarker, if_neg (by simp [ha])]
    dsimp only
    rw [if_pos epoch]
    rfl
  · have acted : (restartFreeRun s).sp.epoch = s.sp.epoch ∧ actOnMarker e (restartFreeRun s) = actOnMarker e s := by
      unfold restartFreeRun
      split <;> exact ⟨rfl, rfl⟩
    rw [takeMarker, if_neg (by simp [ha])]
    dsimp only
    rw [acted.1, acted.2, if_neg he]
    rfl

end Sys2Proof.Machine
end

section
/-! SUPPORT. Frames that leave: their headers, their bodies and what sending them changes (O23, O24, O25). -/

namespace Sys2Proof.Machine

open Sys2Proof

/-! ### Headers (R4, R9, R207, R208) -/

/-- Bits that a mask leaves out do not show under it. -/
theorem or_and_of_disjoint (a h m : Byte) (hm : h &&& m = 0) : (a ||| h) &&& m = a &&& m := by
  rw [BitVec.and_comm, BitVec.and_or_distrib_left, BitVec.and_comm m h, hm, BitVec.and_comm m a]
  exact BitVec.or_zero

/-- An address of a member fits the originator bits. -/
theorem addr_and_mask {a : Byte} (h : a.toNat ≤ 62) : a &&& 0x3F = a := by
  apply BitVec.eq_of_toNat_eq
  rw [BitVec.toNat_and]
  exact (Nat.and_two_pow_sub_one_eq_mod a.toNat 6).trans (Nat.mod_eq_of_lt (by omega))

theorem headerGood_seal (f : WireFrame) (h : f.kind = 0x5A ∨ f.kind = 0xA5) : headerGood (sealFrame f) = true := by
  have check : crc (headerBytes (sealFrame f)) = (sealFrame f).check := rfl
  have kind : (sealFrame f).kind = f.kind := rfl
  rw [headerGood, check, kind]
  rcases h with h | h <;> simp [h]

/-- R9: what the head adds to an originator byte. -/
def headBits (head : Bool) (bits : Byte) : Byte := if head then bits else 0

theorem originator_or (a bits : Byte) (head : Bool) (hb : bits &&& 0x3F = 0) :
    (a ||| headBits head bits) &&& 0x3F = a &&& 0x3F := by
  refine or_and_of_disjoint _ _ _ ?_
  cases head
  · exact BitVec.zero_and
  · exact hb

/-! ### Markers (R32, R34, R207) -/

/-- R207, log 20: the spare marker bits are 0, and so is the epoch byte of a frame without a marker. -/
structure MarkerClean (f : WireFrame) : Prop where
  spare : f.marker &&& 0x7F = 0
  epoch : frameMarker f = none → f.epoch = 0

theorem markerClean_none (f : WireFrame) (hm : f.marker = 0) (he : f.epoch = 0) :
    frameMarker f = none ∧ MarkerClean f := by
  have unmarked : frameMarker f = none := by simp [frameMarker, hm]
  exact ⟨unmarked, by rw [hm]; decide, fun _ => he⟩

theorem markerClean_withMarker (e : Epoch) (f : WireFrame) :
    frameMarker (withMarker e f) = some e ∧ MarkerClean (withMarker e f) := by
  have bit : (0x80 : Byte).getLsbD 7 = true := by decide
  have marked : frameMarker (withMarker e f) = some e := if_pos bit
  have spare : (0x80 : Byte) &&& 0x7F = 0 := by decide
  exact ⟨marked, spare, fun h => by rw [marked] at h; nomatch h⟩

/-- R32, R34: the frame that leaves: its own header but for the marker placed in it. -/
theorem finishFrame_spec (m : Option Epoch) {f : WireFrame} (hk : f.kind = 0xA5) (hc : MarkerClean f) :
    (finishFrame m f).kind = 0xA5 ∧ headerGood (finishFrame m f) = true ∧ (finishFrame m f).orig = f.orig ∧
      (finishFrame m f).body = f.body ∧ frameMarker (finishFrame m f) = m.or (frameMarker f) ∧
      MarkerClean (finishFrame m f) := by
  cases m with
  | none => exact ⟨hk, headerGood_seal f (.inr hk), rfl, rfl, rfl, hc.spare, hc.epoch⟩
  | some e =>
    obtain ⟨marker, clean⟩ := markerClean_withMarker e f
    exact ⟨hk, headerGood_seal (withMarker e f) (.inr hk), rfl, rfl, marker, clean.spare, clean.epoch⟩

/-- R4, R9: a frame made here. -/
theorem madeFrame_spec (t : Trunk) : (madeFrame t).kind = 0xA5 ∧ (madeFrame t).orig = t.addr ||| headBits (activeHead t) 0xC0 ∧
    (madeFrame t).body = some emptyBody ∧ frameMarker (madeFrame t) = none ∧ MarkerClean (madeFrame t) :=
  ⟨rfl, rfl, rfl, markerClean_none _ rfl rfl⟩

/-- R4, R9: a frame passed on. -/
theorem passFrame_spec (t : Trunk) (f : WireFrame) : (passFrame t f).kind = f.kind ∧
    (passFrame t f).orig = f.orig ||| headBits (activeHead t) 0x40 ∧ (passFrame t f).body = f.body ∧
    frameMarker (passFrame t f) = frameMarker f ∧ MarkerClean (passFrame t f) := by
  have orig : f.orig ||| headBits false 0x40 = f.orig := BitVec.or_zero
  unfold passFrame
  cases hm : frameMarker f with
  | none =>
    obtain ⟨unmarked, clean⟩ := markerClean_none { f with marker := 0, epoch := 0 } rfl rfl
    cases activeHead t with
    | false => exact ⟨rfl, orig.symm, rfl, unmarked, clean⟩
    | true => exact ⟨rfl, rfl, rfl, unmarked, clean.spare, clean.epoch⟩
  | some e =>
    obtain ⟨marked, clean⟩ := markerClean_withMarker e f
    cases activeHead t with
    | false => exact ⟨rfl, orig.symm, rfl, marked, clean⟩
    | true => exact ⟨rfl, rfl, rfl, marked, clean.spare, clean.epoch⟩

/-! ### What sending changes (R62, R63) -/

/-- Of the router the collision flags alone change. -/
structure CollisionsOnly (r r' : Router) : Prop where
  rest : r' = { r with routes := r'.routes }
  routes : ∀ d : DestId, r'.routes[d] = { r.routes[d] with collision := r'.routes[d].collision }

theorem CollisionsOnly.refl (r : Router) : CollisionsOnly r r := ⟨rfl, fun _ => rfl⟩

theorem CollisionsOnly.trans {r r' r'' : Router} (h : CollisionsOnly r r') (g : CollisionsOnly r' r'') :
    CollisionsOnly r r'' := by
  refine ⟨?_, fun d => ?_⟩
  · rw [g.rest, h.rest]
  · rw [g.routes, h.routes]

theorem Only.collisions {bs : List Block} {s t : State} (h : Only bs s t) (hr : Block.router ∉ bs := by decide) :
    CollisionsOnly s.router t.router := by
  have same : t.router = s.router := h.keep .router hr
  rw [same]
  exact .refl _

theorem collide_collisions (n : Fin 32) (k : SlotId) (d : Dir) (orig : Byte) (s : State) :
    CollisionsOnly s.router (collide n k d orig s).router := by
  unfold collide
  dsimp only
  split
  · exact .refl _
  · refine CollisionsOnly.trans ?_ (report_only ..).collisions
    refine ⟨rfl, fun j => ?_⟩
    simp only [modRoute, State.modRouter_router, vmod_get]
    split
    · next h => rw [h]
    · rfl

theorem insertAll_collisions (b : FrameBody) (d : Dir) (orig : Byte) (s : State) :
    CollisionsOnly s.router (insertAll b d orig s).1.router := by
  have step : ∀ n a, CollisionsOnly s.router a.1.router → CollisionsOnly s.router (insertOne b d orig n a).1.router := by
    intro n a h
    unfold insertOne
    split
    · exact h
    · split
      · exact h.trans (collide_collisions ..)
      · exact h
  unfold insertAll
  exact forFin_induct (fun a : State × FrameBody => CollisionsOnly s.router a.1.router) _ step (s, b) (.refl _)

/-- R62: insertions touch no cell slot. -/
theorem insertAll_slot (b : FrameBody) (d : Dir) (orig : Byte) (s : State) :
    (insertAll b d orig s).2.occupancy = b.occupancy ∧ (insertAll b d orig s).2.cell = b.cell := by
  have step : ∀ n a, a.2.occupancy = b.occupancy ∧ a.2.cell = b.cell →
      (insertOne b d orig n a).2.occupancy = b.occupancy ∧ (insertOne b d orig n a).2.cell = b.cell := by
    intro n a h
    unfold insertOne
    split
    · exact h
    · split
      · exact h
      · exact h
  unfold insertAll
  exact forFin_induct (fun a : State × FrameBody => a.2.occupancy = b.occupancy ∧ a.2.cell = b.cell) _ step (s, b)
    ⟨rfl, rfl⟩

/-- R18: a free cell slot with the cell granted to it, or free. -/
def slotFilled (b : FrameBody) (won : Option Cell) : FrameBody :=
  match won with
  | some c => { b with occupancy := 1, cell := cellWire c }
  | none => freeSlot b

section
variable {p : Port} {f : WireFrame} {s : State}

theorem fillFrame_none (h : inserts s.trunk (portDir p) = false) : fillFrame p f s = (s, f) := by
  rw [fillFrame]
  dsimp only
  rw [if_neg (by simp [h])]

section
variable {ins : State × FrameBody} (hi : insertAll (bodyOf f) (portDir p) (originator f) s = ins)
include hi

/-- R18, R62: insertions, then the cell granted to the free slot. -/
theorem fillFrame_free {won : State × Option Cell} (hw : grant (portDir p) ins.1 = won)
    (h : inserts s.trunk (portDir p) = true) (ho : (bodyOf f).occupancy ≠ 1) :
    fillFrame p f s = (won.1, { f with body := some (slotFilled ins.2 won.2) }) := by
  have kept := (insertAll_slot (bodyOf f) (portDir p) (originator f) s).1
  have free : hasCell ins.2 = false := by
    rw [hasCell, ← hi, kept]
    simpa using ho
  rw [fillFrame]
  dsimp only
  rw [if_pos h, hi, offerSlot, if_neg (by simp [free]), ← hw]
  rfl

/-- R18, R62: insertions, where the frame brings a cell. -/
theorem fillFrame_taken (h : inserts s.trunk (portDir p) = true) (ho : (bodyOf f).occupancy = 1) :
    fillFrame p f s = (ins.1, { f with body := some ins.2 }) := by
  have kept := (insertAll_slot (bodyOf f) (portDir p) (originator f) s).1
  have taken : hasCell ins.2 = true := by
    rw [hasCell, ← hi, kept]
    simpa using ho
  rw [fillFrame]
  dsimp only
  rw [if_pos h, hi, offerSlot, if_pos taken]

end

end

section
variable (p : Port) (f : WireFrame) (s : State)

/-- R62: filling a frame changes its body alone. -/
theorem fillFrame_header : (fillFrame p f s).2 = { f with body := (fillFrame p f s).2.body } := by
  rw [fillFrame]
  dsimp only
  split <;> rfl

theorem fillFrame_collisions : CollisionsOnly s.router (fillFrame p f s).1.router := by
  cases h : inserts s.trunk (portDir p) with
  | false =>
    rw [fillFrame_none h]
    exact .refl _
  | true =>
    have inserted := insertAll_collisions (bodyOf f) (portDir p) (originator f) s
    generalize hi : insertAll (bodyOf f) (portDir p) (originator f) s = ins at inserted
    by_cases ho : (bodyOf f).occupancy = 1
    · rw [fillFrame_taken hi h ho]
      exact inserted
    · rw [fillFrame_free hi rfl h ho]
      exact inserted.trans (grant_only ..).collisions

theorem fillFrame_trunk : (fillFrame p f s).1.trunk = s.trunk := (fillFrame_only p f s).keep .trunk (by decide)

end

/-! ### One frame sent (R3) -/

section
variable {p : Port} {s : State}

theorem exec_send (hm : isMember s.trunk = true) (hs : (portOf s.trunk p).sent = false) :
    exec (.outputFrameSend p) s = .next ((buildFrame p s).1.modTrunk
      (modPort p (afterSend (sendingOf s.trunk p) (buildFrame p s).2))) := by
  show act (sendFrame p) s = _
  rw [act, if_pos hm, sendFrame, if_neg (by simp [hs])]

/-- R3: the port that has sent frame `f`, with no mark left. -/
def portSent (f : WireFrame) (x : PortState) : PortState := { x with buffer := none, mark := none, sent := true, out := some f }

theorem buildFrame_idle (h : sendingOf s.trunk p = .idle) : buildFrame p s = (s, idleFrame s.trunk) := by
  rw [buildFrame, h]

theorem buildFrame_raw {f : WireFrame} (h : sendingOf s.trunk p = .raw f) : buildFrame p s = (s, f) := by
  rw [buildFrame, h]

theorem buildFrame_made (h : sendingOf s.trunk p = .made) : buildFrame p s = ((fillFrame p (madeFrame s.trunk) s).1,
    finishFrame (placedMark .made (portOf s.trunk p).mark) (fillFrame p (madeFrame s.trunk) s).2) := by
  rw [buildFrame, h]

theorem buildFrame_passed {f : WireFrame} (h : sendingOf s.trunk p = .passed f) : buildFrame p s =
    ((fillFrame p (passFrame s.trunk f) s).1,
      finishFrame (placedMark (.passed f) (portOf s.trunk p).mark) (fillFrame p (passFrame s.trunk f) s).2) := by
  rw [buildFrame, h]

/-- R3, R4, R18, R32, R34, R62: `t` is what sending leaves, `g` the frame that leaves: frame `f` filled here, with marker
`m` placed in it. -/
structure FilledSent (p : Port) (f : WireFrame) (m : Option Epoch) (s t : State) (g : WireFrame) : Prop where
  run : exec (.outputFrameSend p) s = .next t
  only : Only [.trunk, .cells, .router, .mgmt] s t
  trunk : t.trunk = modPort p (portSent g) s.trunk
  kind : g.kind = 0xA5
  good : headerGood g = true
  orig : g.orig = f.orig
  marker : frameMarker g = m.or (frameMarker f)
  clean : MarkerClean g
  body : g.body = (fillFrame p f s).2.body
  rest : t = { (fillFrame p f s).1 with trunk := t.trunk }
  router : CollisionsOnly s.router t.router

theorem filledSent (hm : isMember s.trunk = true) (hs : (portOf s.trunk p).sent = false) {f : WireFrame}
    {m : Option Epoch} (hx : ∀ g, afterSend (sendingOf s.trunk p) g = portSent g)
    (hb : buildFrame p s = ((fillFrame p f s).1, finishFrame m (fillFrame p f s).2)) (hk : f.kind = 0xA5)
    (hc : MarkerClean f) : ∃ t g, FilledSent p f m s t g := by
  have header := fillFrame_header p f s
  have kind : (fillFrame p f s).2.kind = 0xA5 := (congrArg WireFrame.kind header).trans hk
  have same : frameMarker (fillFrame p f s).2 = frameMarker f := (congrArg frameMarker header).trans rfl
  have clean : MarkerClean (fillFrame p f s).2 := by
    rw [header]
    exact ⟨hc.spare, hc.epoch⟩
  obtain ⟨hkind, good, orig, body, marker, placed⟩ := finishFrame_spec m kind clean
  refine ⟨(fillFrame p f s).1.modTrunk (modPort p (portSent (finishFrame m (fillFrame p f s).2))),
    finishFrame m (fillFrame p f s).2, ?_, ?_, ?_, hkind, good, ?_, ?_, placed, body, rfl, fillFrame_collisions p f s⟩
  · rw [exec_send hm hs, hb, hx]
  · exact ((fillFrame_only p f s).mono (by decide)).trans ((modTrunk_only ..).mono (by decide))
  · rw [State.modTrunk_trunk, fillFrame_trunk]
  · exact orig.trans ((congrArg WireFrame.orig header).trans rfl)
  · rw [marker, same]

end

/-- Settles O23: the two contents of an output that are filled with nothing. -/
theorem idleAndBadFramesSent : Obligations.IdleAndBadFramesSent := by
  intro p s hm hs
  refine ⟨fun hc => ?_, fun f hc hb hg => ?_⟩
  · have sending : sendingOf s.trunk p = .idle := by rw [sendingOf, hc]
    have orig : (idleFrame s.trunk).orig = s.trunk.addr ||| headBits (activeHead s.trunk) 0x80 := rfl
    refine ⟨idleFrame s.trunk, rfl, rfl, headerGood_seal _ (.inl rfl), ?_, ?_, ?_, (markerClean_none _ rfl rfl).1, ?_⟩
    · rw [originator, orig, originator_or _ _ _ (by decide)]
    · rw [headFlag, orig, BitVec.getLsbD_or]
      cases activeHead s.trunk <;> simp [headBits]
    · rw [headPassed, orig, BitVec.getLsbD_or]
      cases activeHead s.trunk <;> simp [headBits]
    · rw [exec_send hm hs, buildFrame_idle sending, sending]
      rfl
  · have sending : sendingOf s.trunk p = .raw f := by
      rw [sendingOf, hc]
      simp [hb, hg]
    have mark : ∀ m : Option OutMark, leftMark (.raw f) m =
        match m with | some m => if m.relay = true then none else some m | none => none := by
      rintro (_ | ⟨e, relay⟩)
      · rfl
      · cases relay <;> rfl
    rw [exec_send hm hs, buildFrame_raw sending, sending]
    exact congrArg Host.Outcome.next (modTrunk_congr (modPort_congr
      (congrArg (fun m => { portOf s.trunk p with buffer := none, mark := m, sent := true, out := some f }) (mark _))))

/-- R207: the bits above an address of a member are 0. -/
theorem addr_high {a : Byte} (h : a.toNat ≤ 62) (i : Nat) (hi : 6 ≤ i) : a.getLsbD i = false :=
  Nat.testBit_lt_two_pow (calc
    a.toNat < 2 ^ 6 := by omega
    _ ≤ 2 ^ i := Nat.pow_le_pow_right (by decide) hi)

/-- Settles O24: the header by `madeFrame_spec`, the body and the rest by `filledSent`. -/
theorem madeFramesSent : Obligations.MadeFramesSent := by
  intro p s hm hs ha hc
  have sending : sendingOf s.trunk p = .made := by
    rcases hc with hc | ⟨hc, hb | ⟨x, hb, hg, hk⟩⟩
    · rw [sendingOf, hc]
    · rw [sendingOf, hc]
      simp [hb]
    · rw [sendingOf, hc]
      simp [hb, hg, isIdle_iff.2 hk]
  have placed : placedMark .made (portOf s.trunk p).mark = (portOf s.trunk p).mark.map (·.epoch) := by
    cases (portOf s.trunk p).mark <;> rfl
  obtain ⟨kind, orig, body, unmarked, clean⟩ := madeFrame_spec s.trunk
  obtain ⟨t, g, sent⟩ := filledSent hm hs (by rw [sending]; exact fun _ => rfl) (buildFrame_made sending) kind clean
  have address : originator (madeFrame s.trunk) = s.trunk.addr := by
    rw [originator, orig, originator_or _ _ _ (by decide), addr_and_mask ha]
  generalize hi : insertAll emptyBody (portDir p) s.trunk.addr s = ins
  refine ⟨t, g, sent.run, sent.only, sent.trunk, sent.kind, sent.good, ?_, ?_, ?_, ?_, sent.clean.spare, sent.clean.epoch,
    fun h => ?_, fun h => ?_, sent.router.rest, sent.router.routes⟩
  · rw [originator, sent.orig]
    exact address
  · rw [headFlag, sent.orig, orig, BitVec.getLsbD_or, addr_high ha 7 (by decide)]
    cases activeHead s.trunk <;> simp [headBits]
  · rw [headPassed, sent.orig, orig, BitVec.getLsbD_or, addr_high ha 6 (by decide)]
    cases activeHead s.trunk <;> simp [headBits]
  · rw [sent.marker, unmarked, placed, Option.or_none]
  · have filled := fillFrame_free (f := madeFrame s.trunk) (ins := ins) (by rw [address]; exact hi) rfl h (show (0 : Byte) ≠ 1 by decide)
    have body := sent.body
    have rest := sent.rest
    rw [filled] at body rest
    exact ⟨body.trans rfl, rest⟩
  · have whole := fillFrame_none (f := madeFrame s.trunk) h
    have body := sent.body
    have rest := sent.rest
    rw [whole] at body rest
    refine ⟨body, ?_⟩
    rw [rest]
    exact modTrunk_only s fun _ => t.trunk

/-- Settles O25: the header by `passFrame_spec`, the body and the rest by `filledSent`. -/
theorem forwardedFramesSent : Obligations.ForwardedFramesSent := by
  intro p f s hm hs hc hb hg hk
  have sending : sendingOf s.trunk p = .passed f := by
    have notIdle : isIdle f = false := by rw [isIdle, hk]; decide
    rw [sendingOf, hc]
    simp [hb, hg, notIdle]
  obtain ⟨kind, orig, body, marker, clean⟩ := passFrame_spec s.trunk f
  obtain ⟨t, g, sent⟩ := filledSent hm hs (by rw [sending]; exact fun _ => rfl) (buildFrame_passed sending)
    (kind.trans hk) clean
  have origin : originator (passFrame s.trunk f) = originator f := by
    rw [originator, orig, originator_or _ _ _ (by decide), originator]
  have same : bodyOf (passFrame s.trunk f) = bodyOf f := by rw [bodyOf, body, bodyOf]
  have inserting := inserts_of_forwarded hc
  generalize hi : insertAll (bodyOf f) (portDir p) (originator f) s = ins
  have hi' : insertAll (bodyOf (passFrame s.trunk f)) (portDir p) (originator (passFrame s.trunk f)) s = ins := by
    rw [origin, same, hi]
  refine ⟨t, g, sent.run, sent.only, sent.trunk, sent.kind, sent.good, ?_, ?_, ?_, ?_, sent.clean.spare, sent.clean.epoch,
    inserting, fun h => ?_, fun h => ?_, sent.router.rest, sent.router.routes⟩
  · rw [originator, sent.orig]
    exact origin
  · rw [headFlag, sent.orig, orig, BitVec.getLsbD_or, headFlag]
    cases activeHead s.trunk <;> simp [headBits]
  · rw [headPassed, sent.orig, orig, BitVec.getLsbD_or, headPassed]
    cases activeHead s.trunk <;> simp [headBits]
  · rw [sent.marker, marker]
    cases (portOf s.trunk p).mark with
    | none => rfl
    | some m => cases h : m.relay <;> simp [placedMark, h]
  · have filled := fillFrame_taken hi' inserting (by rw [same]; exact h)
    have body := sent.body
    have rest := sent.rest
    rw [filled] at body rest
    exact ⟨body, rest⟩
  · have filled := fillFrame_free hi' rfl inserting (by rw [same]; exact h)
    have body := sent.body
    have rest := sent.rest
    rw [filled] at body rest
    exact ⟨body.trans rfl, rest⟩

end Sys2Proof.Machine
end

section
/-! SUPPORT. A sample period (O27). -/

namespace Sys2Proof.Machine

open Sys2Proof

/-! ### What a step over an index does to the flags (R203) -/

theorem FlagsRise.forFin {n : Nat} {f : Fin n → State → State} (h : ∀ i s, FlagsRise s (f i s)) (s : State) :
    FlagsRise s (forFin n f s) :=
  forFin_induct (FlagsRise s) f (fun i _ g => g.trans (h i _)) s (.refl s)

theorem reportClipped_flags (m : MixId) (x : MixPeriod) (was : Bool) (s : State) : FlagsRise s (reportClipped m x was s) := by
  unfold reportClipped
  split
  · exact (report_flags ..).1
  · exact .refl s

theorem reportAllClipped_flags (x : Vector MixPeriod 24) (old : MixEngine) (s : State) :
    FlagsRise s (reportAllClipped x old s) :=
  .forFin (fun _ _ => reportClipped_flags ..) s

/-! ### The value of a slot (R15) -/

/-- R15: the value that a copy of the slots gives. -/
def copyValue (n : SlotId) : Option (Vector WireSlot 128) → Option Sample
  | none => none
  | some v => if slotValid v[n] then some v[n].sample else none

theorem slotValue_eq (t : Trunk) (n : SlotId) : slotValue t n = (copyValue n t.west.copy).or (copyValue n t.east.copy) := by
  have first : slotValue t n = match copyValue n t.west.copy with
      | some x => some x
      | none => copyValue n t.east.copy := rfl
  rw [first]
  cases copyValue n t.west.copy <;> rfl

theorem copyValue_eq_some_iff (n : SlotId) (c : Option (Vector WireSlot 128)) (x : Sample) :
    copyValue n c = some x ↔ ∃ v, c = some v ∧ slotValid v[n] = true ∧ v[n].sample = x := by
  cases c with
  | none => simp [copyValue]
  | some v => simp [copyValue]

/-- R15: no copy gives a value where none is valid. -/
theorem copyValue_eq_none {n : SlotId} {c : Option (Vector WireSlot 128)}
    (h : ∀ y, ¬∃ v, c = some v ∧ slotValid v[n] = true ∧ v[n].sample = y) : copyValue n c = none := by
  cases hc : copyValue n c with
  | none => rfl
  | some y => exact absurd ((copyValue_eq_some_iff n c y).1 hc) (h y)

/-! ### The frame and its counts -/

/-- R59 to R62, R119: the node once the mix and the deliveries of the period stand and its CLIPPED reports are made. -/
def periodMixed (tdm : Vector Sample 32) (s : State) : State :=
  reportAllClipped (mixPeriods tdm s) s.mix
    { s with mix := mixAfter (mixPeriods tdm s) s.mix, router := routerAfter tdm (mixPeriods tdm s) s }

theorem periodMixed_only (tdm : Vector Sample 32) (s : State) : Only cellBlocks
    { s with mix := mixAfter (mixPeriods tdm s) s.mix, router := routerAfter tdm (mixPeriods tdm s) s }
    (periodMixed tdm s) := reportAllClipped_only ..

/-- R179: whether a line is driven does not hang on what the mix and its reports changed. -/
theorem drivenOn_periodMixed (tdm : Vector Sample 32) (s : State) (w : WireId) :
    drivenOn (periodMixed tdm s) w = drivenOn s w := by
  have only := periodMixed_only tdm s
  have flags : FlagsRise { s with mix := mixAfter (mixPeriods tdm s) s.mix, router := routerAfter tdm (mixPeriods tdm s) s }
      (periodMixed tdm s) := reportAllClipped_flags ..
  have lamp : (periodMixed tdm s).lamp = s.lamp := only.keep .lamp (by decide)
  have sp : (periodMixed tdm s).sp = s.sp := only.keep .sp (by decide)
  rw [drivenOn, drivenOn, flags.1, lamp, sp]

theorem Only.cellBlocks_eq {s t : State} (h : Only cellBlocks s t) : ∃ c m, t = { s with cells := c, mgmt := m } := by
  have keep : ∀ b : Block, b ∉ cellBlocks → same b s t := h.keep
  obtain ⟨trunk, sp, cells, router, talk, mix, panel, tally, lamp, mgmt, start, freeCount, pending⟩ := t
  obtain rfl : trunk = s.trunk := keep .trunk (by decide)
  obtain rfl : sp = s.sp := keep .sp (by decide)
  obtain rfl : router = s.router := keep .router (by decide)
  obtain rfl : talk = s.talk := keep .talk (by decide)
  obtain rfl : mix = s.mix := keep .mix (by decide)
  obtain rfl : panel = s.panel := keep .panel (by decide)
  obtain rfl : tally = s.tally := keep .tally (by decide)
  obtain rfl : lamp = s.lamp := keep .lamp (by decide)
  obtain rfl : start = s.start := keep .start (by decide)
  obtain rfl : freeCount = s.freeCount := keep .choice (by decide)
  obtain rfl : pending = s.pending := keep .queue (by decide)
  exact ⟨cells, mgmt, rfl⟩

theorem runPeriod_eq (tdm : Vector Sample 32) (s : State) : runPeriod tdm s = tick (lampFrame (periodMixed tdm s)) := rfl

theorem lampFrame_out (s : State) (w : WireId) : (lampFrame s).lamp.lampOut[w] = drivenOn s w := vof_get 48 (drivenOn s) w

/-- R179, R180: what the frame leaves of a line. -/
theorem lampFrame_line (s : State) (w : WireId) : (lampFrame s).lamp.lines[w] = { s.lamp.lines[w] with
    onSeen := s.lamp.lines[w].onSeen || drivenOn s w, tripped := false, heldOff := false } := by
  rw [← lampFrame_out s w]
  exact vof_get 48 _ w

/-- R109: the previous result of a mix output after the period is the result of the period. -/
theorem rampedRecs_prev {tdm : Vector Sample 32} {s u : State} (h : u.mix = mixAfter (mixPeriods tdm s) s.mix) (m : MixId) :
    (rampedRecs u)[m].prev = (vmap mixSample (mixPeriods tdm s))[m] := by
  simp only [rampedRecs, vof_get, vmap_get, h, mixAfter, afterPeriod]

theorem portOf_ticked (t : Trunk) (p : Port) :
    portOf { t with east := tickPort t.east, west := tickPort t.west } p = tickPort (portOf t p) := by
  cases p <;> rfl

/-- Settles O27: the copies of R15 by `slotValue_eq`; the period by the rules for its mix, its lamp frame and its tick. -/
theorem periodDelivers : Obligations.PeriodDelivers := by
  refine ⟨fun t n => ⟨fun x h => ?_, fun x no h => ?_, fun no no' => ?_⟩, fun tdm s hm => ?_⟩
  · have west := (copyValue_eq_some_iff n _ x).2 h
    have value : slotValue t n = some x := by rw [slotValue_eq, west, Option.some_or]
    exact ⟨value, by rw [slotSample, value, Option.getD_some]⟩
  · have east := (copyValue_eq_some_iff n _ x).2 h
    have value : slotValue t n = some x := by rw [slotValue_eq, copyValue_eq_none no, Option.none_or, east]
    exact ⟨value, by rw [slotSample, value, Option.getD_some]⟩
  · have value : slotValue t n = none := by rw [slotValue_eq, copyValue_eq_none no, copyValue_eq_none no', Option.none_or]
    exact ⟨value, by rw [slotSample, value, Option.getD_none]⟩
  · have mixed := periodMixed_only tdm s
    have driven := drivenOn_periodMixed tdm s
    have run : exec (.samplePeriod tdm) s = .next (tick (lampFrame (periodMixed tdm s))) := by
      show Host.Outcome.next (if isMember s.trunk then runPeriod tdm s else repeaterPeriod s) = _
      rw [if_pos hm, runPeriod_eq]
    have mix : (periodMixed tdm s).mix = mixAfter (mixPeriods tdm s) s.mix := mixed.keep .mix (by decide)
    generalize periodMixed tdm s = u at mixed driven run mix
    obtain ⟨c, m, rfl⟩ := mixed.cellBlocks_eq
    refine ⟨_, run, ?_, rfl, rfl, fun w => ⟨?_, ?_⟩, rfl, rfl, rfl, portOf_ticked s.trunk, rfl, fun i => ?_, rfl, ?_⟩
    · intro value
      have given : sourceValue s.trunk tdm (vmap mixSample (mixPeriods tdm s)) = value := by
        funext x
        cases x with
        | mix m => exact (rampedRecs_prev rfl m).symm
        | _ => rfl
      rw [← given]
      exact ⟨vof_get 32 _, vof_get 32 _⟩
    · exact (lampFrame_out ..).trans (driven w)
    · exact (lampFrame_line ..).trans (congrArg (fun on => { s.lamp.lines[w] with
        onSeen := s.lamp.lines[w].onSeen || on, tripped := false, heldOff := false }) (driven w))
    · exact vmap_get tickLine s.panel.lines i
    · refine ⟨fun b hb => ?_⟩
      cases b with
      | talk => rfl
      | choice => rfl
      | queue => rfl
      | _ => exact absurd (by simp) hb

end Sys2Proof.Machine
end

section
/-! SUPPORT. Requests served and CLEAR (O59). -/

namespace Sys2Proof.Machine

open Sys2Proof

/-! ### A request that is no repeat (R42, R44, R189, R191) -/

section
variable {src tag : Byte} {r : Request} {s : State}

theorem act_fromCell (h : Reaches s src) (f : State → State) : act (fromCell src f) s = .next (f s) := by
  obtain ⟨member, sound, foreign⟩ := h
  rw [act, if_pos member, fromCell, if_neg foreign, if_pos sound]

theorem takeRequestCell_fresh (h : Fresh s src tag (requestCode r)) : takeRequestCell src tag r s = serveNew src tag r s := by
  unfold takeRequestCell
  cases he : entryOf s.mgmt src with
  | none => rfl
  | some e =>
    have new : isRepeatOf tag r e = false := by
      have := h.2 e he
      simpa [isRepeatOf] using this
    simp [new]

/-- R189: a request served for the first time is answered with what its service gives. -/
theorem serveNew_replied (hp : isPage1 r = false) : serveNew src tag r s =
    replied src tag (requestCode r) (serve src r s).2.code (serve src r s).2.fields (serve src r s).1 := by
  rw [serveNew, hp, Bool.false_and, if_neg Bool.false_ne_true]
  rfl

theorem request_fresh (h : Fresh s src tag (requestCode r)) (hp : isPage1 r = false) : request src tag r s =
    .next (replied src tag (requestCode r) (serve src r s).2.code (serve src r s).2.fields (serve src r s).1) := by
  rw [request, act_fromCell h.1, takeRequestCell_fresh h, serveNew_replied hp]

/-- R41, R44: a REQUEST cell of a sound source and length, to this node, passes every test. -/
theorem receiveCell_request {len : Byte} {p : List Byte} (hs : sourceOk src = true) (h1 : 1 ≤ len.toNat)
    (h40 : len.toNat ≤ 40) : receiveCell { kind := 8, dest := s.trunk.addr, src := src, tag := tag, len := len, payload := p } s =
      takeRequestCell src tag (readRequest p) s := by
  have passes : testCell s.trunk.addr
      { kind := 8, dest := s.trunk.addr, src := src, tag := tag, len := len, payload := p } = .pass .request := by
    have tests : testCell s.trunk.addr
        { kind := 8, dest := s.trunk.addr, src := src, tag := tag, len := len, payload := p } =
          if !sourceOk src || !lengthOk .request len.toNat then .malformed
          else if destOk .request s.trunk.addr s.trunk.addr then .pass .request else .misaddressed := rfl
    rw [tests]
    simp [hs, lengthOk, h1, h40, destOk]
  rw [receiveCell, passes]
  rfl

end

/-! ### Requests too short for their kind (R211) -/

/-- R211: the kinds of request with fields, and the bytes each needs. -/
def neededBytes : List (Nat × Nat) :=
  [(0, 6), (1, 4), (2, 6), (3, 2), (4, 4), (5, 3), (6, 2), (7, 2), (9, 4), (10, 2)]

theorem readRequest_short {p : List Byte} {k : Nat × Nat} (hk : k ∈ neededBytes) (hl : p.length < k.2)
    (h0 : byteAt p 0 = b8 k.1) : readRequest p = .short (b8 k.1) := by
  simp only [neededBytes, List.mem_cons, List.not_mem_nil, or_false] at hk
  unfold readRequest
  dsimp only
  rw [h0]
  rcases hk with rfl | rfl | rfl | rfl | rfl | rfl | rfl | rfl | rfl | rfl
  all_goals exact if_neg (Nat.not_le.2 hl)

/-- R211: of the kinds with fields, TAKE alone has kind 4. -/
theorem short_fields {k : Nat × Nat} (hk : k ∈ neededBytes) : b8 k.1 = 4 ↔ k.1 = 4 := by
  revert k
  decide

/-! ### Sets of items (R202, R207) -/

theorem ofBitmap_bitmap_three {n : Nat} (h : n < 2 ^ 24) : ofBitmap (bitmap 3 n) = n := by
  have bytes : ofBitmap (bitmap 3 n) = n % 256 + 256 * (n / 256 % 256 + 256 * (n / 65536 % 256)) := by
    simp [ofBitmap, bitmap, b8, List.range_succ]
  rw [bytes]
  omega

theorem readRequest_clear (items : BitVec 24) : readRequest (9 :: bitmap 3 items.toNat) = .clear items.toNat := by
  have read : readRequest (9 :: bitmap 3 items.toNat) = .clear (ofBitmap (bitmap 3 items.toNat)) := rfl
  rw [read, ofBitmap_bitmap_three items.isLt]

theorem clearSticky_flag {k j : Nat} (hj : j < 16) (flags : BitVec 16) :
    (clearSticky (2 ^ k) flags).getLsbD j = (flags.getLsbD j && j != k) := by
  rw [clearSticky, BitVec.getLsbD_and, BitVec.getLsbD_not, BitVec.getLsbD_ofNat, Nat.testBit_two_pow]
  simp [hj, bne, eq_comm (a := k)]
  rfl

/-- R202: no event flag is an item from 16 on. -/
theorem clearSticky_high {k : Nat} (hk : 16 ≤ k) (flags : BitVec 16) : clearSticky (2 ^ k) flags = flags := by
  apply BitVec.eq_of_getLsbD_eq
  intro j hj
  have other : (j != k) = true := by simp only [bne_iff_ne]; omega
  rw [clearSticky_flag hj, other, Bool.and_true]

/-! ### What a CLEAR does (R202) -/

theorem vmap_eq_vof {α β : Type} {n : Nat} (f : α → β) (v : Vector α n) : vmap f v = vof n fun i => f v[i] := by
  ext i hi
  simp

/-- R184: the line of `clearFault`, with the mark of log 8 written out. -/
theorem clearFault_eq (x : LampLine) : clearFault x = { x with
    fault := .ok, count := 0, retryOff := false, tripped := false
    heldOff := x.fault == .latched || (x.retryOff && !x.tripped) || x.heldOff } := by
  have held : (!faultLetsOn x) = (x.fault == .latched || (x.retryOff && !x.tripped) || x.heldOff) := by
    simp only [faultLetsOn, Bool.not_and, Bool.not_not, Bool.not_or, bne]
  rw [clearFault, held]

section
variable (items i : Nat) (s : State)

theorem onItem_trunk (f : Trunk → Trunk) : onItem items i (State.modTrunk · f) s =
    { s with trunk := if items.testBit i then f s.trunk else s.trunk } := by
  rw [onItem]; split <;> rfl

theorem onItem_cells (f : CellEngine → CellEngine) : onItem items i (State.modCells · f) s =
    { s with cells := if items.testBit i then f s.cells else s.cells } := by
  rw [onItem]; split <;> rfl

theorem onItem_panel (f : Panel → Panel) : onItem items i (State.modPanel · f) s =
    { s with panel := if items.testBit i then f s.panel else s.panel } := by
  rw [onItem]; split <;> rfl

theorem onItem_tally (f : Tally → Tally) : onItem items i (State.modTally · f) s =
    { s with tally := if items.testBit i then f s.tally else s.tally } := by
  rw [onItem]; split <;> rfl

theorem onItem_router (f : Router → Router) : onItem items i (State.modRouter · f) s =
    { s with router := if items.testBit i then f s.router else s.router } := by
  rw [onItem]; split <;> rfl

theorem onItem_mix (f : MixEngine → MixEngine) : onItem items i (State.modMix · f) s =
    { s with mix := if items.testBit i then f s.mix else s.mix } := by
  rw [onItem]; split <;> rfl

theorem onItem_lamp (f : LampDriver → LampDriver) : onItem items i (State.modLamp · f) s =
    { s with lamp := if items.testBit i then f s.lamp else s.lamp } := by
  rw [onItem]; split <;> rfl

end

/-- R202: every block loses the item that is its own, where that is named. -/
theorem clearItems_eq (items : Nat) (s : State) : clearItems items s = { s with
    mgmt := { s.mgmt with sticky := clearSticky items s.mgmt.sticky }
    trunk := if items.testBit 16 then (clearPorts s).trunk else s.trunk
    cells := if items.testBit 17 then (clearCells s).cells else s.cells
    panel := if items.testBit 18 then (clearPanels s).panel else s.panel
    tally := if items.testBit 19 then (clearTally s).tally else s.tally
    router := if items.testBit 20 then (clearCollisions s).router else s.router
    mix := if items.testBit 21 then (clearClipped s).mix else s.mix
    lamp := if items.testBit 22 then (clearLampFaults s).lamp else s.lamp } := by
  unfold clearItems clearPorts clearCells clearPanels clearTally clearCollisions clearClipped clearLampFaults
  simp only [onItem_trunk, onItem_cells, onItem_panel, onItem_tally, onItem_router, onItem_mix, onItem_lamp]
  rfl

theorem clearPanels_panel (s : State) : (clearPanels s).panel =
    { s.panel with lines := vof 8 fun i => { s.panel.lines[i] with badScans := 0 } } := by
  rw [clearPanels, State.modPanel_panel, vmap_eq_vof]

theorem clearCollisions_router (s : State) : (clearCollisions s).router =
    { s.router with routes := vof 64 fun d => { s.router.routes[d] with collision := false } } := by
  rw [clearCollisions, State.modRouter_router, vmap_eq_vof]

theorem clearClipped_mix (s : State) : (clearClipped s).mix =
    { s.mix with recs := vof 24 fun m => { s.mix.recs[m] with clipped := false } } := by
  rw [clearClipped, State.modMix_mix, vmap_eq_vof]

theorem clearLampFaults_lamp (s : State) : (clearLampFaults s).lamp = { s.lamp with lines := vof 48 fun w =>
    { s.lamp.lines[w] with
      fault := .ok, count := 0, retryOff := false, tripped := false
      heldOff := s.lamp.lines[w].fault == .latched || (s.lamp.lines[w].retryOff && !s.lamp.lines[w].tripped) ||
        s.lamp.lines[w].heldOff } } := by
  rw [clearLampFaults, State.modLamp_lamp, vmap_eq_vof]
  simp only [clearFault_eq]

/-- R202: a CLEAR of one item above the event flags. -/
theorem clearItems_one {k : Nat} (hk : 16 ≤ k) (s : State) : clearItems (2 ^ k) s = { s with
    trunk := if k = 16 then (clearPorts s).trunk else s.trunk
    cells := if k = 17 then (clearCells s).cells else s.cells
    panel := if k = 18 then (clearPanels s).panel else s.panel
    tally := if k = 19 then (clearTally s).tally else s.tally
    router := if k = 20 then (clearCollisions s).router else s.router
    mix := if k = 21 then (clearClipped s).mix else s.mix
    lamp := if k = 22 then (clearLampFaults s).lamp else s.lamp } := by
  rw [clearItems_eq, clearSticky_high hk]
  simp only [Nat.testBit_two_pow, decide_eq_true_eq]

/-- R202: a CLEAR of one event flag. -/
theorem clearItems_flag {k : Nat} (hk : k < 16) (s : State) : clearItems (2 ^ k) s =
    { s with mgmt := { s.mgmt with sticky := clearSticky (2 ^ k) s.mgmt.sticky } } := by
  have others : ∀ i, 16 ≤ i → ¬(2 ^ k).testBit i = true := fun i hi => by
    rw [Nat.testBit_two_pow, decide_eq_true_eq]
    omega
  rw [clearItems_eq, if_neg (others 16 (by decide)), if_neg (others 17 (by decide)), if_neg (others 18 (by decide)),
    if_neg (others 19 (by decide)), if_neg (others 20 (by decide)), if_neg (others 21 (by decide)),
    if_neg (others 22 (by decide))]

/-- R202: a CLEAR of one known item clears it and is answered OK. -/
theorem clearItem_fresh {k : Nat} (hk : k < 23) {src tag : Byte} {s : State} (h : Fresh s src tag 9) :
    clearItem k src tag s = .next (replied src tag 9 .ok [] (clearItems (2 ^ k) s)) := by
  have known : ¬(2 ^ k).testBit 23 = true := by
    rw [Nat.testBit_two_pow, decide_eq_true_eq]
    omega
  have served : serve src (.clear (2 ^ k)) s = (clearItems (2 ^ k) s, plain .ok) := if_neg known
  rw [clearItem, request_fresh (r := .clear (2 ^ k)) h rfl, served]
  rfl

/-- Settles O59: one item by `clearItem_fresh`, several by `clearItems_eq`, a short request by `readRequest_short`. -/
theorem itemsCleared : Obligations.ItemsCleared := by
  unfold Obligations.ItemsCleared
  intro cleared
  refine ⟨fun s src tag fresh => ⟨fun k => ?_, ?_, ?_, ?_, ?_, ?_, ?_, ?_⟩, fun s src tag items fresh => ?_,
    fun s src tag p hp k hk hl hh fresh => ?_⟩
  · refine ⟨_, (clearItem_fresh (by omega) fresh : clearItem k.val src tag s = _), ?_, fun j hj => ?_⟩
    · rw [clearItems_flag k.isLt]
    · rw [clearItems_flag k.isLt]
      exact clearSticky_flag hj _
  · exact (clearItem_fresh (k := 16) (by decide) fresh).trans (by rw [clearItems_one (by decide)]; rfl)
  · exact (clearItem_fresh (k := 17) (by decide) fresh).trans (by rw [clearItems_one (by decide)]; rfl)
  · refine (clearItem_fresh (k := 18) (by decide) fresh).trans ?_
    rw [clearItems_one (by decide), clearPanels_panel]
    rfl
  · exact (clearItem_fresh (k := 19) (by decide) fresh).trans (by rw [clearItems_one (by decide)]; rfl)
  · refine (clearItem_fresh (k := 20) (by decide) fresh).trans ?_
    rw [clearItems_one (by decide), clearCollisions_router]
    rfl
  · refine (clearItem_fresh (k := 21) (by decide) fresh).trans ?_
    rw [clearItems_one (by decide), clearClipped_mix]
    rfl
  · refine (clearItem_fresh (k := 22) (by decide) fresh).trans ?_
    rw [clearItems_one (by decide), clearLampFaults_lamp]
    rfl
  · have taken : ∀ b : Bool, items.toNat.testBit 23 = b →
        receiveCell { kind := 8, dest := s.trunk.addr, src := src, tag := tag, len := 4
                      payload := 9 :: bitmap 3 items.toNat } s =
          replied src tag 9 (if b then .invalid else .ok) [] (if b then s else clearItems items.toNat s) := by
      intro b hb
      rw [receiveCell_request fresh.1.2.1 (by decide) (by decide), readRequest_clear,
        takeRequestCell_fresh (r := .clear items.toNat) fresh, serveNew_replied rfl, serve, serveClear, hb]
      cases b <;> rfl
    refine ⟨taken true, fun known => (taken false known).trans ?_⟩
    have flags : clearSticky items.toNat s.mgmt.sticky = s.mgmt.sticky &&& ~~~ items.setWidth 16 := by
      rw [clearSticky, BitVec.ofNat_toNat]
    rw [if_neg Bool.false_ne_true, if_neg Bool.false_ne_true, clearItems_eq, flags, clearPanels_panel,
      clearCollisions_router, clearClipped_mix, clearLampFaults_lamp]
    rfl
  · obtain ⟨b, rest, rfl⟩ : ∃ b rest, p = b :: rest := by
      cases p with
      | nil => cases hh
      | cons b rest => exact ⟨b, rest, rfl⟩
    have first : b = b8 k.1 := Option.some.inj hh
    have len : (b8 (b :: rest).length).toNat = (b :: rest).length := by
      rw [b8, BitVec.toNat_ofNat]
      omega
    rw [receiveCell_request fresh.1.2.1 (by rw [len]; simp) (by rw [len]; exact hp),
      readRequest_short hk hl first, takeRequestCell_fresh (r := .short (b8 k.1)) fresh, serveNew_replied rfl]
    have fields : (if b8 k.1 = 4 then [0xFF] else []) = (if k.1 = 4 then [0xFF] else [] : List Byte) :=
      if_congr (short_fields hk) rfl rfl
    rw [← fields]
    rfl

end Sys2Proof.Machine
end

section
/-! SUPPORT. What talk does to the Management Responder, and to the keys that it is for. -/

namespace Sys2Proof.Machine

open Sys2Proof

/-! ### Steps over a list -/

theorem foldl_keeps {α β : Type} {P : α → Prop} {f : α → β → α} {l : List β} (h : ∀ a, ∀ b ∈ l, P a → P (f a b)) {a : α}
    (ha : P a) : P (l.foldl f a) := by
  induction l generalizing a with
  | nil => exact ha
  | cons b l ih => exact ih (fun a c hc => h a c (List.mem_cons_of_mem b hc)) (h a b List.mem_cons_self ha)

/-- A fold comes to `Q` where one step of it does and no step leaves it. -/
theorem foldl_reaches {α β : Type} {P Q : α → Prop} {f : α → β → α} {l : List β} {i : β} (hi : i ∈ l)
    (keep : ∀ a b, P a → P (f a b)) (come : ∀ a, P a → Q (f a i)) (stay : ∀ a b, P a → Q a → Q (f a b)) {a : α}
    (ha : P a) : Q (l.foldl f a) := by
  induction l generalizing a with
  | nil => cases hi
  | cons b l ih =>
    rcases List.mem_cons.1 hi with rfl | hi
    · exact (foldl_keeps (P := fun x => P x ∧ Q x) (fun x c _ h => ⟨keep x c h.1, stay x c h.1 h.2⟩)
        ⟨keep a i ha, come a ha⟩).2
    · exact ih hi (keep a b ha)

theorem forFin_reaches {α : Type} {n : Nat} {P Q : α → Prop} {f : Fin n → α → α} (i : Fin n)
    (keep : ∀ j a, P a → P (f j a)) (come : ∀ a, P a → Q (f i a)) (stay : ∀ j a, P a → Q a → Q (f j a)) {a : α}
    (ha : P a) : Q (forFin n f a) :=
  foldl_reaches (f := fun a j => f j a) (List.mem_finRange i) (fun a j => keep j a) come (fun a j => stay j a) ha

/-! ### Flags (R203) -/

theorem FlagsRise.foldl {β : Type} {f : State → β → State} (h : ∀ s b, FlagsRise s (f s b)) (l : List β) (s : State) :
    FlagsRise s (l.foldl f s) :=
  foldl_keeps (fun a b _ g => g.trans (h a b)) (.refl s)

theorem sendCell_flags (kind : CellKind) (dest : Byte) (tag : Option Byte) (payload : List Byte) (s : State) :
    FlagsRise s (sendCell kind dest tag payload s) := createCell_flags ..

theorem modTalk_flags (f : TalkAuthority → TalkAuthority) (s : State) : FlagsRise s (s.modTalk f) := .of_eq rfl

theorem modList_flags (l : ListId) (f : List Talker → List Talker) (s : State) : FlagsRise s (modList l f s) :=
  modTalk_flags ..

theorem modOrigin_flags (i : OriginId) (f : OriginEntry → OriginEntry) (s : State) : FlagsRise s (modOrigin i f s) :=
  modTalk_flags ..

theorem announceListOn_flags (l : ListId) (t : Talker) (s : State) : FlagsRise s (announceListOn l t s) := by
  cases l with
  | direct m => exact .refl s
  | conf c => exact sendCell_flags ..

theorem announceListOff_flags (l : ListId) (n : Byte) (i : OriginId) (s : State) : FlagsRise s (announceListOff l n i s) := by
  cases l with
  | direct m => exact .refl s
  | conf c => exact sendCell_flags ..

theorem outcomeAt_flags (target : TalkTarget) (i : OriginId) (o : TalkOutcome) (s : State) :
    FlagsRise s (outcomeAt target i o s) := by
  have unwanted : FlagsRise s (if o = .granted then sendTalkOff target i s else s) := by
    split
    · exact sendCell_flags ..
    · exact .refl s
  unfold outcomeAt
  dsimp only
  split
  · split
    · exact modOrigin_flags ..
    · exact unwanted
  · exact unwanted

theorem answerTalk_flags (n : Byte) (i : OriginId) (target : TalkTarget) (o : TalkOutcome) (tag : Option Byte) (s : State) :
    FlagsRise s (answerTalk n i target o tag s) := by
  unfold answerTalk
  split
  · exact outcomeAt_flags ..
  · exact sendCell_flags ..

theorem admitTo_flags (l : ListId) (target : TalkTarget) (t : Talker) (tag : Option Byte) (s : State) :
    FlagsRise s (admitTo l target t tag s) := by
  have entered : ∀ x, FlagsRise s (modList l (fun _ => x) s) := fun x => modList_flags ..
  unfold admitTo
  dsimp only
  split
  · exact ((entered _).trans (announceListOn_flags ..)).trans (answerTalk_flags ..)
  · exact ((entered _).trans (announceListOn_flags ..)).trans (answerTalk_flags ..)
  · exact ((((entered _).trans (announceListOff_flags ..)).trans (announceListOn_flags ..)).trans
      (answerTalk_flags ..)).trans (answerTalk_flags ..)
  · exact answerTalk_flags ..

theorem handleTalkOff_flags (target : TalkTarget) (n : Byte) (i : OriginId) (s : State) :
    FlagsRise s (handleTalkOff target n i s) := by
  unfold handleTalkOff
  split
  · exact .refl s
  · split
    · exact (modList_flags ..).trans (announceListOff_flags ..)
    · exact .refl s

theorem sendOrigin_flags (i : OriginId) (s : State) : FlagsRise s (sendOrigin i s) := by
  unfold sendOrigin
  split
  · exact .refl s
  · dsimp only
    split
    · exact (modOrigin_flags ..).trans (admitTo_flags ..)
    · exact (modOrigin_flags ..).trans (sendCell_flags ..)

theorem createOrigin_flags (m : MapId) (k : KeyId) (sub : Option (Fin 4)) (target : TalkTarget) (s : State) :
    FlagsRise s (createOrigin m k sub target s).1 := by
  unfold createOrigin
  split
  · exact .refl s
  · exact (modTalk_flags ..).trans (sendOrigin_flags ..)

theorem endOrigin_flags (i : OriginId) (s : State) : FlagsRise s (endOrigin i s) := by
  unfold endOrigin
  split
  · exact .refl s
  · dsimp only
    split
    · exact (modTalk_flags ..).trans (handleTalkOff_flags ..)
    · exact (modTalk_flags ..).trans (sendCell_flags ..)

theorem refreshOrigin_flags (i : OriginId) (s : State) : FlagsRise s (refreshOrigin i s) := by
  unfold refreshOrigin
  dsimp only
  split
  · exact ((modOrigin_flags ..).trans (modOrigin_flags ..)).trans (sendOrigin_flags ..)
  · exact modOrigin_flags ..

theorem reportExpired_flags (l : ListId) (n : Byte) (i : OriginId) (s : State) : FlagsRise s (reportExpired l n i s) := by
  unfold reportExpired
  split
  · exact .refl s
  · exact (report_flags ..).1

theorem expireTalker_flags (l : ListId) (n : Byte) (i : OriginId) (s : State) : FlagsRise s (expireTalker l n i s) := by
  have dropped : FlagsRise s (modList l (dropTalker n i) s) := modList_flags ..
  unfold expireTalker
  dsimp only
  split
  · exact dropped.trans (reportExpired_flags ..)
  · split
    · exact (dropped.trans (sendCell_flags ..)).trans (reportExpired_flags ..)
    · exact dropped

theorem countdownList_flags (l : ListId) (s : State) : FlagsRise s (countdownList l s) :=
  (modList_flags ..).trans (.foldl (fun _ _ => expireTalker_flags ..) _ _)

theorem countdownLeases_flags (s : State) : FlagsRise s (countdownLeases s) :=
  (FlagsRise.forFin (fun _ _ => countdownList_flags ..) s).trans (.forFin (fun _ _ => countdownList_flags ..) _)

theorem refreshOrigins_flags (p : OriginId → Bool) (s : State) : FlagsRise s (refreshOrigins p s) := by
  refine .forFin (fun i u => ?_) s
  split
  · exact refreshOrigin_flags ..
  · exact .refl u

theorem talkSwitchPoint_flags (s : State) : FlagsRise s (talkSwitchPoint s) :=
  (((FlagsRise.of_eq (t := s.countChoice) rfl).trans (refreshOrigins_flags ..)).trans (countdownLeases_flags _)).trans
    (refreshOrigins_flags ..)

/-- R96: the talk of a switch point takes one free choice. -/
theorem talkSwitchPoint_choice (s : State) : (talkSwitchPoint s).freeCount = s.freeCount + 1 := by
  have talk : Only talkBlocks s.countChoice (talkSwitchPoint s) :=
    ((refreshOrigins_only ..).trans (countdownLeases_only _)).trans (refreshOrigins_only ..)
  have kept : (talkSwitchPoint s).freeCount = s.countChoice.freeCount := talk.keep .choice (by decide)
  exact kept

end Sys2Proof.Machine
end

section
/-! SUPPORT. The tally-follow keys of a bus that changed (R135, R156). -/

namespace Sys2Proof.Machine

open Sys2Proof

/-! ### What the talk of keys changes -/

/-- The blocks that the talk of a tally-follow key changes. -/
def keyTalkBlocks : List Block := [.panel, .talk, .cells, .mgmt]

/-- R134, R135: `t` is `s` after talk of keys: of the Panel Interface the resolved lists and refused points alone change. -/
structure KeysTalk (s t : State) : Prop where
  only : Only keyTalkBlocks s t
  flags : FlagsRise s t
  panel : t.panel = { s.panel with keys := t.panel.keys }
  keys : ∀ i : Fin 256, t.panel.keys[i] = { s.panel.keys[i] with
    resolved := t.panel.keys[i].resolved, refusedPoints := t.panel.keys[i].refusedPoints }

theorem KeysTalk.refl (s : State) : KeysTalk s s := ⟨.refl _ s, .refl s, rfl, fun _ => rfl⟩

theorem KeysTalk.trans {s t u : State} (h : KeysTalk s t) (g : KeysTalk t u) : KeysTalk s u := by
  refine ⟨h.only.trans g.only, h.flags.trans g.flags, ?_, fun i => ?_⟩
  · rw [g.panel, h.panel]
  · rw [g.keys i, h.keys i]

theorem KeysTalk.tally {s t : State} (h : KeysTalk s t) : t.tally = s.tally := h.only.keep .tally (by decide)

theorem KeysTalk.entry {s t : State} (h : KeysTalk s t) (m : MapId) (k : KeyId) : keyEntry t m k = keyEntry s m k := by
  rw [keyEntry, h.panel, keyEntry]

theorem KeysTalk.active {s t : State} (h : KeysTalk s t) (m : MapId) (k : KeyId) :
    (keyState t m k).active = (keyState s m k).active := by
  rw [keyState, h.keys, keyState]

theorem KeysTalk.foldl {β : Type} {f : State → β → State} (h : ∀ s b, KeysTalk s (f s b)) (l : List β) (s : State) :
    KeysTalk s (l.foldl f s) :=
  foldl_keeps (fun a b _ g => g.trans (h a b)) (.refl s)

theorem KeysTalk.forFin {n : Nat} {f : Fin n → State → State} (h : ∀ i s, KeysTalk s (f i s)) (s : State) :
    KeysTalk s (forFin n f s) :=
  .foldl (f := fun s i => f i s) (fun s i => h i s) _ s

/-- Talk that changes no panel. -/
theorem KeysTalk.of_talk {s t : State} (h : Only talkBlocks s t) (g : FlagsRise s t) : KeysTalk s t := by
  have panel : t.panel = s.panel := h.keep .panel (by decide)
  refine ⟨h.mono (by decide), g, ?_, fun i => ?_⟩ <;> rw [panel]

/-! ### The talk of one key -/

/-- R134, R135: talk of one key: the other keys stand. -/
structure OneKeyTalk (m : MapId) (k : KeyId) (s t : State) : Prop extends KeysTalk s t where
  others : ∀ i, i ≠ keyIx m k → t.panel.keys[i] = s.panel.keys[i]

section
variable {m : MapId} {k : KeyId} {s t u : State}

theorem OneKeyTalk.refl (m : MapId) (k : KeyId) (s : State) : OneKeyTalk m k s s := ⟨.refl s, fun _ _ => rfl⟩

theorem OneKeyTalk.trans (h : OneKeyTalk m k s t) (g : OneKeyTalk m k t u) : OneKeyTalk m k s u :=
  ⟨h.toKeysTalk.trans g.toKeysTalk, fun i hi => (g.others i hi).trans (h.others i hi)⟩

theorem OneKeyTalk.foldl {β : Type} {f : State → β → State} (h : ∀ s b, OneKeyTalk m k s (f s b)) (l : List β)
    (s : State) : OneKeyTalk m k s (l.foldl f s) :=
  foldl_keeps (fun a b _ g => g.trans (h a b)) (.refl m k s)

theorem OneKeyTalk.of_talk (h : Only talkBlocks s t) (g : FlagsRise s t) : OneKeyTalk m k s t := by
  have panel : t.panel = s.panel := h.keep .panel (by decide)
  exact ⟨.of_talk h g, fun i _ => by rw [panel]⟩

/-- A change of the resolved list and the refused points of one key. -/
theorem OneKeyTalk.modKey {f : KeyState → KeyState}
    (hf : ∀ x, f x = { x with resolved := (f x).resolved, refusedPoints := (f x).refusedPoints }) (s : State) :
    OneKeyTalk m k s (modKey m k f s) := by
  have after : ∀ i, (Machine.modKey m k f s).panel.keys[i] =
      if keyIx m k = i then f s.panel.keys[keyIx m k] else s.panel.keys[i] := fun i => vmod_get ..
  refine ⟨⟨(modKey_only ..).mono (by decide), .of_eq rfl, rfl, fun i => ?_⟩, fun i hi => ?_⟩
  · rw [after]
    split
    · next h =>
      subst h
      exact hf _
    · rfl
  · rw [after, if_neg (Ne.symm hi)]

theorem modKey_own (f : KeyState → KeyState) (s : State) : keyState (modKey m k f s) m k = f (keyState s m k) :=
  vmod_same ..

end

theorem keyIx_inj {m m' : MapId} {k k' : KeyId} (h : keyIx m k = keyIx m' k') : m = m' ∧ k = k' := by
  have := congrArg Fin.val h
  simp only [keyIx] at this
  exact ⟨Fin.ext (by omega), Fin.ext (by omega)⟩

theorem startTallyTalk_key (m : MapId) (k : KeyId) (p : PointId) (s : State) :
    OneKeyTalk m k s (startTallyTalk m k p s) ∧
      (keyState (startTallyTalk m k p s) m k).resolved = (keyState s m k).resolved := by
  have refuse : ∀ u, OneKeyTalk m k u (modKey m k (fun x => { x with refusedPoints := x.refusedPoints ++ [p] }) u) ∧
      (keyState (modKey m k (fun x => { x with refusedPoints := x.refusedPoints ++ [p] }) u) m k).resolved =
        (keyState u m k).resolved :=
    fun u => ⟨.modKey (fun _ => rfl) u, by rw [modKey_own]⟩
  have created : ∀ i, OneKeyTalk m k s (createOrigin m k (some i) (.point p) s).1 ∧
      keyState (createOrigin m k (some i) (.point p) s).1 m k = keyState s m k := fun i => by
    have only := createOrigin_only m k (some i) (.point p) s
    have panel : (createOrigin m k (some i) (.point p) s).1.panel = s.panel := only.keep .panel (by decide)
    exact ⟨.of_talk only (createOrigin_flags ..), by rw [keyState, panel, keyState]⟩
  unfold startTallyTalk
  dsimp only
  split
  · exact refuse s
  · next i _ =>
    obtain ⟨talk, same⟩ := created i
    split
    · exact ⟨talk, by rw [same]⟩
    · obtain ⟨more, kept⟩ := refuse (createOrigin m k (some i) (.point p) s).1
      exact ⟨talk.trans more, by rw [kept, same]⟩

theorem endTallyTalk_key (m : MapId) (k : KeyId) (p : PointId) (s : State) : OneKeyTalk m k s (endTallyTalk m k p s) := by
  unfold endTallyTalk
  dsimp only
  refine OneKeyTalk.trans ?_ (.modKey (fun _ => rfl) _)
  split
  · exact .refl m k s
  · exact .of_talk (endOrigin_only ..) (endOrigin_flags ..)

/-- R135: a key that takes the new list of its bus. -/
theorem reresolveKey_key (m : MapId) (k : KeyId) (b : BusId) (cap : Nat) (s : State) :
    OneKeyTalk m k s (reresolveKey m k b cap s) ∧
      (keyState (reresolveKey m k b cap s) m k).resolved = resolvePoints s.tally b cap := by
  unfold reresolveKey
  dsimp only
  refine ⟨((OneKeyTalk.foldl (fun _ _ => endTallyTalk_key ..) _ _).trans (.modKey (fun _ => rfl) _)).trans
    (.foldl (fun _ _ => (startTallyTalk_key ..).1) _ _), ?_⟩
  refine foldl_keeps (P := fun u => (keyState u m k).resolved = resolvePoints s.tally b cap)
    (fun u p _ h => (startTallyTalk_key m k p u).2.trans h) ?_
  rw [modKey_own]

/-! ### A bus announced -/

/-- R156: the key hears of bus `b`. -/
def hears (s : State) (b : BusId) (m : MapId) (k : KeyId) (cap : Nat) : Prop :=
  (keyEntry s m k).fn = .talkTally b cap ∧ (keyState s m k).active = true

section
variable {b : BusId} {m : MapId} {k : KeyId} {cap : Nat} {s u : State}

theorem KeysTalk.hears_iff (h : KeysTalk s u) : hears u b m k cap ↔ hears s b m k cap := by
  rw [hears, hears, h.entry, h.active]

theorem announceToKey_heard (h : hears s b m k cap) : announceToKey b m k s = reresolveKey m k b cap s := by
  unfold announceToKey
  rw [h.1]
  simp [h.2]

theorem announceToKey_unheard (h : ∀ cap, ¬hears s b m k cap) : announceToKey b m k s = s := by
  unfold announceToKey
  cases hf : (keyEntry s m k).fn with
  | talkTally b' cap =>
    have deaf : ¬((decide (b' = b) && (keyState s m k).active) = true) := by
      intro both
      rw [Bool.and_eq_true, decide_eq_true_eq] at both
      exact h cap ⟨both.1 ▸ hf, both.2⟩
    exact if_neg deaf
  | _ => rfl

end

theorem announceToKey_key (b : BusId) (m : MapId) (k : KeyId) (s : State) : OneKeyTalk m k s (announceToKey b m k s) := by
  by_cases h : ∃ cap, hears s b m k cap
  · obtain ⟨cap, h⟩ := h
    rw [announceToKey_heard h]
    exact (reresolveKey_key ..).1
  · rw [announceToKey_unheard fun cap hc => h ⟨cap, hc⟩]
    exact .refl m k s

theorem announceBus_keys (s : State) (b : BusId) : KeysTalk s (announceBus s b) :=
  .forFin (fun _ u => .forFin (fun _ _ => (announceToKey_key ..).toKeysTalk) u) s

section
variable {m : MapId} {k : KeyId} {cap : Nat} {s u : State}

/-- R156: a key that hears of no bus announced stands. -/
theorem announceToKey_stands {b : BusId} {m' : MapId} {k' : KeyId} (deaf : ∀ cap, ¬hears u b m k cap) :
    keyState (announceToKey b m' k' u) m k = keyState u m k := by
  by_cases h : keyIx m k = keyIx m' k'
  · obtain ⟨rfl, rfl⟩ := keyIx_inj h
    rw [announceToKey_unheard deaf]
  · exact (announceToKey_key b m' k' u).others _ h

theorem announceBus_stands {b : BusId} (deaf : ∀ cap, ¬hears s b m k cap) :
    keyState (announceBus s b) m k = keyState s m k := by
  have step : ∀ m' k' u, KeysTalk s u ∧ keyState u m k = keyState s m k →
      KeysTalk s (announceToKey b m' k' u) ∧ keyState (announceToKey b m' k' u) m k = keyState s m k := fun m' k' u h =>
    ⟨h.1.trans (announceToKey_key ..).toKeysTalk,
      (announceToKey_stands fun cap hc => deaf cap (h.1.hears_iff.1 hc)).trans h.2⟩
  exact (forFin_induct (fun u => KeysTalk s u ∧ keyState u m k = keyState s m k) _
    (fun m' u h => forFin_induct _ _ (step m') u h) s ⟨.refl s, rfl⟩).2

/-- R135: the list that the key has resolved is that of its bus as it now stands. -/
def Follows (s u : State) (m : MapId) (k : KeyId) (b : BusId) (cap : Nat) : Prop :=
  (keyState u m k).resolved = resolvePoints s.tally b cap

/-- R156: a key that has followed its bus keeps to it, whatever bus any key hears of next. -/
theorem Follows.stays {b b' : BusId} {m' : MapId} {k' : KeyId} (heard : hears s b m k cap) (talk : KeysTalk s u)
    (h : Follows s u m k b cap) : Follows s (announceToKey b' m' k' u) m k b cap := by
  by_cases hb : b' = b ∧ keyIx m k = keyIx m' k'
  · obtain ⟨rfl, hk⟩ := hb
    obtain ⟨rfl, rfl⟩ := keyIx_inj hk
    rw [announceToKey_heard (talk.hears_iff.2 heard), Follows, (reresolveKey_key ..).2, talk.tally]
  · have same : keyState (announceToKey b' m' k' u) m k = keyState u m k := by
      by_cases hk : keyIx m k = keyIx m' k'
      · refine announceToKey_stands fun cap' hc => hb ⟨?_, hk⟩
        have fn := (talk.hears_iff.1 hc).1.symm.trans heard.1
        injection fn
      · exact (announceToKey_key b' m' k' u).others _ hk
    rw [Follows, same]
    exact h

theorem Follows.comes {b : BusId} (heard : hears s b m k cap) (talk : KeysTalk s u) :
    Follows s (announceToKey b m k u) m k b cap := by
  rw [announceToKey_heard (talk.hears_iff.2 heard), Follows, (reresolveKey_key ..).2, talk.tally]

/-- R156: bus `b` announced to every key of one map. -/
def announceRow (b : BusId) (m : MapId) (s : State) : State := forFin 32 (fun k => announceToKey b m k) s

theorem announceBus_eq (s : State) (b : BusId) : announceBus s b = forFin 8 (announceRow b) s := rfl

theorem announceRow_keys (b : BusId) (m : MapId) (s : State) : KeysTalk s (announceRow b m s) :=
  .forFin (fun _ _ => (announceToKey_key ..).toKeysTalk) s

theorem Follows.row {b b' : BusId} {m' : MapId} (heard : hears s b m k cap) (talk : KeysTalk s u)
    (h : Follows s u m k b cap) : Follows s (announceRow b' m' u) m k b cap :=
  (forFin_induct (fun v => KeysTalk s v ∧ Follows s v m k b cap) _
    (fun k' _ h => ⟨h.1.trans (announceToKey_key b' m' k' _).toKeysTalk, h.2.stays heard h.1⟩) u ⟨talk, h⟩).2

theorem Follows.announced {b b' : BusId} (heard : hears s b m k cap) (talk : KeysTalk s u)
    (h : Follows s u m k b cap) : Follows s (announceBus u b') m k b cap := by
  rw [announceBus_eq]
  exact (forFin_induct (fun v => KeysTalk s v ∧ Follows s v m k b cap) _
    (fun m' _ h => ⟨h.1.trans (announceRow_keys b' m' _), h.2.row heard h.1⟩) u ⟨talk, h⟩).2

theorem announceRow_follows {b : BusId} (heard : hears s b m k cap) (talk : KeysTalk s u) :
    Follows s (announceRow b m u) m k b cap :=
  forFin_reaches (P := KeysTalk s) (Q := fun v => Follows s v m k b cap) k
    (fun k' _ h => h.trans (announceToKey_key b m k' _).toKeysTalk) (fun _ h => .comes heard h)
    (fun _ _ h hf => hf.stays heard h) talk

theorem announceBus_follows {b : BusId} (heard : hears s b m k cap) (talk : KeysTalk s u) :
    Follows s (announceBus u b) m k b cap := by
  rw [announceBus_eq]
  exact forFin_reaches (P := KeysTalk s) (Q := fun v => Follows s v m k b cap) m
    (fun m' _ h => h.trans (announceRow_keys b m' _)) (fun _ h => announceRow_follows heard h)
    (fun _ _ h hf => hf.row heard h) talk

end

/-! ### Every bus that changed -/

section
variable (l : List BusId) {s : State} {m : MapId} {k : KeyId}

theorem announced_keys (s : State) : KeysTalk s (l.foldl announceBus s) := .foldl announceBus_keys l s

theorem announced_follows {b : BusId} {cap : Nat} (hb : b ∈ l) (heard : hears s b m k cap) :
    (keyState (l.foldl announceBus s) m k).resolved = resolvePoints s.tally b cap :=
  foldl_reaches (P := KeysTalk s) (Q := fun u => Follows s u m k b cap) hb
    (fun u b' hu => hu.trans (announceBus_keys u b')) (fun _ hu => announceBus_follows heard hu)
    (fun _ _ hu hf => hf.announced heard hu) (.refl s)

theorem announced_stands (deaf : ∀ b ∈ l, ∀ cap, ¬hears s b m k cap) :
    keyState (l.foldl announceBus s) m k = keyState s m k :=
  (foldl_keeps (P := fun u => KeysTalk s u ∧ keyState u m k = keyState s m k) (fun u b hb h =>
    ⟨h.1.trans (announceBus_keys u b),
      (announceBus_stands fun cap hc => deaf b hb cap (h.1.hears_iff.1 hc)).trans h.2⟩) ⟨.refl s, rfl⟩).2

end

end Sys2Proof.Machine
end

section
/-! SUPPORT. The delivery of a switch point (O32). -/

namespace Sys2Proof.Machine

open Sys2Proof

/-! ### Targets, routes and buses (R37, R70, R149) -/

/-- R37: a target is reached when its distance behind the epoch is below 128. -/
theorem reached_epoch (e t : Epoch) : reached e (.epoch t) = decide ((e.toNat + 256 - t.toNat) % 256 < 128) := by
  have distance : (e - t).toNat = (e.toNat + 256 - t.toNat) % 256 := by
    rw [BitVec.toNat_sub]
    have := t.isLt
    have := e.isLt
    omega
  rw [reached, distance]

/-! ### The local bus (R153) -/

theorem bitsOf_succ (n : Nat) (p : Nat → Bool) : bitsOf (n + 1) p = bitsOf n p + if p n then 2 ^ n else 0 := by
  simp only [bitsOf, List.range_succ, List.foldl_append, List.foldl_cons, List.foldl_nil]
  split <;> rfl

theorem bitsOf_lt (n : Nat) (p : Nat → Bool) : bitsOf n p < 2 ^ n := by
  induction n with
  | zero => exact Nat.one_pos
  | succ n ih =>
    rw [bitsOf_succ, Nat.pow_succ]
    split <;> omega

/-- A set is what its indexes spell. -/
theorem testBit_bitsOf (n : Nat) (p : Nat → Bool) (i : Nat) : (bitsOf n p).testBit i = (decide (i < n) && p i) := by
  induction n with
  | zero => simp [bitsOf]
  | succ n ih =>
    have top : (bitsOf n p).testBit n = false := Nat.testBit_lt_two_pow (bitsOf_lt n p)
    rcases Nat.lt_trichotomy i n with h | rfl | h
    · have below : (bitsOf (n + 1) p).testBit i = (bitsOf n p).testBit i := by
        rw [bitsOf_succ]
        split
        · rw [Nat.add_comm, Nat.testBit_two_pow_add_gt h]
        · rfl
      rw [below, ih, decide_eq_true h, decide_eq_true (Nat.lt_succ_of_lt h)]
    · rw [bitsOf_succ, decide_eq_true (Nat.lt_succ_self i), Bool.true_and]
      cases p i
      · exact top
      · rw [if_pos rfl, Nat.add_comm, Nat.testBit_two_pow_add_eq, top, Bool.not_false]
    · have above : bitsOf (n + 1) p < 2 ^ i := (bitsOf_lt ..).trans_le (Nat.pow_le_pow_right (by decide) h)
      rw [Nat.testBit_lt_two_pow above, decide_eq_false (by omega), Bool.false_and]

theorem inSet_localBus (t : Tally) (id : Byte) : inSet (localBus t) id = true ↔
    ∃ i : GpiId, t.gpi[i].enable = true ∧ t.gpi[i].source = id ∧ (t.gpiState[i].cond = true ∨ t.gpiState[i].mark = true) := by
  have bit : inSet (localBus t) id = (List.finRange 16).any fun i =>
      gpiShows t.gpi[i] t.gpiState[i] && t.gpi[i].source.toNat == id.toNat := by
    rw [inSet, localBus, BitVec.getLsbD_ofNat, testBit_bitsOf]
    simp [id.isLt]
  rw [bit, List.any_eq_true]
  constructor
  · rintro ⟨i, -, h⟩
    simp only [gpiShows, Bool.and_eq_true, Bool.or_eq_true, beq_iff_eq] at h
    exact ⟨i, h.1.1, BitVec.eq_of_toNat_eq h.2, h.1.2⟩
  · rintro ⟨i, enabled, rfl, shows⟩
    refine ⟨i, List.mem_finRange i, ?_⟩
    rw [gpiShows, Bool.and_eq_true, Bool.and_eq_true, Bool.or_eq_true, beq_iff_eq]
    exact ⟨⟨enabled, shows⟩, rfl⟩

/-! ### Calls (R163) -/

theorem countedCalls (l : List Call) :
    ((l.map fun c => { c with remaining := c.remaining - 1 }).filter fun c => c.remaining != 0) =
      (l.filter fun c => 2 ≤ c.remaining).map fun c => { c with remaining := c.remaining - 1 } := by
  rw [List.filter_map]
  refine congrArg (List.map _) (List.filter_congr fun c _ => ?_)
  by_cases h : 2 ≤ c.remaining
  · simp [h]
    omega
  · simp [h]
    omega

/-! ### The lamps (R159, R178) -/

/-- R159: what a lamp resolved against `s` shows. -/
def lampShows (s : State) (j : LampId) : Drive := lampDrive s.tally s.tally.map[j]

/-- R172, R178: a generator to which a drive is handed. -/
def genHanded (epoch : Option Epoch) (d : Drive) (g : Generator) : Generator :=
  { g with drive := d, pulse := if d = .pulse then .waiting epoch else g.pulse }

/-- R159: lamps were resolved from `s` to `u`: of the two blocks the drives and the generators alone change. -/
structure LampsOnly (s u : State) : Prop where
  tally : u.tally = { s.tally with drives := u.tally.drives }
  lamp : u.lamp = { s.lamp with gens := u.lamp.gens }
  only : Only resolveBlocks s u

/-- R159: lamp `j` stands as in `s`. -/
def LampStands (s u : State) (j : LampId) : Prop :=
  u.tally.drives[j] = s.tally.drives[j] ∧ u.lamp.gens[j] = s.lamp.gens[j]

/-- R159: lamp `j` shows what `s` says, and its generator has been handed a drive that differs. -/
def LampResolved (s u : State) (j : LampId) : Prop :=
  u.tally.drives[j] = lampShows s j ∧ u.lamp.gens[j] =
    if lampShows s j = s.tally.drives[j] then s.lamp.gens[j] else genHanded s.sp.epoch (lampShows s j) s.lamp.gens[j]

section
variable {s u : State} {j : LampId}

theorem LampsOnly.refl (s : State) : LampsOnly s s := ⟨rfl, rfl, .refl _ s⟩

theorem LampsOnly.shows (h : LampsOnly s u) (i : LampId) : lampShows u i = lampShows s i := by
  rw [lampShows, h.tally]
  rfl

theorem LampsOnly.trans {v : State} (h : LampsOnly s u) (g : LampsOnly u v) : LampsOnly s v := by
  refine ⟨?_, ?_, h.only.trans g.only⟩
  · rw [g.tally, h.tally]
  · rw [g.lamp, h.lamp]

theorem resolveLamp_lampsOnly (i : LampId) (u : State) : LampsOnly u (resolveLamp i u) := by
  refine ⟨?_, ?_, resolveLamp_only i u⟩
  all_goals
    unfold resolveLamp
    dsimp only
    split <;> rfl

theorem LampsOnly.resolve (h : LampsOnly s u) (i : LampId) : LampsOnly s (resolveLamp i u) :=
  h.trans (resolveLamp_lampsOnly i u)

theorem resolveLamp_same (h : lampShows u j = u.tally.drives[j]) : resolveLamp j u = u := if_pos h

theorem resolveLamp_other {i : LampId} (hij : i ≠ j) :
    (resolveLamp i u).tally.drives[j] = u.tally.drives[j] ∧ (resolveLamp i u).lamp.gens[j] = u.lamp.gens[j] := by
  unfold resolveLamp
  dsimp only
  split
  · exact ⟨rfl, rfl⟩
  · exact ⟨(vset_get ..).trans (if_neg hij), (vmod_get ..).trans (if_neg hij)⟩

theorem resolveLamp_new (h : lampShows u j ≠ u.tally.drives[j]) : (resolveLamp j u).tally.drives[j] = lampShows u j ∧
    (resolveLamp j u).lamp.gens[j] = genHanded u.sp.epoch (lampShows u j) u.lamp.gens[j] := by
  have step : resolveLamp j u = handGenerator j (lampShows u j)
      (u.modTally fun t => { t with drives := t.drives.set j (lampShows u j) }) := if_neg h
  rw [step]
  exact ⟨(vset_get ..).trans (if_pos rfl), vmod_same ..⟩

theorem LampResolved.comes (talk : LampsOnly s u) (h : LampStands s u j) : LampResolved s (resolveLamp j u) j := by
  obtain ⟨drive, gen⟩ := h
  have shows := talk.shows j
  have sp : u.sp = s.sp := talk.only.keep .sp (by decide)
  by_cases hd : lampShows u j = u.tally.drives[j]
  · rw [resolveLamp_same hd]
    rw [shows, drive] at hd
    exact ⟨drive.trans hd.symm, by rw [gen, if_pos hd]⟩
  · obtain ⟨now, handed⟩ := resolveLamp_new hd
    rw [shows, drive] at hd
    exact ⟨now.trans shows, by rw [handed, shows, sp, gen, if_neg hd]⟩

theorem LampResolved.stays (talk : LampsOnly s u) (h : LampResolved s u j) (i : LampId) :
    LampResolved s (resolveLamp i u) j := by
  by_cases hi : i = j
  · subst hi
    rw [resolveLamp_same ((talk.shows i).trans h.1.symm)]
    exact h
  · obtain ⟨drive, gen⟩ := resolveLamp_other (u := u) hi
    exact ⟨drive.trans h.1, gen.trans h.2⟩

end

theorem lampsOnly_resolved (s : State) : LampsOnly s (forFin 40 resolveLamp s) :=
  forFin_induct (LampsOnly s) _ (fun i _ h => h.resolve i) s (.refl s)

/-- R149, R159: every lamp is resolved once. -/
theorem lampResolved_all (s : State) (j : LampId) : LampResolved s (forFin 40 resolveLamp s) j := by
  have reached : LampResolved s (forFin 40 resolveLamp s) j :=
    forFin_reaches (P := fun u => LampsOnly s u ∧ (LampStands s u j ∨ LampResolved s u j))
      (Q := fun u => LampResolved s u j) j
      (fun i u ⟨only, h⟩ => ⟨only.resolve i, by
        rcases h with h | h
        · by_cases hi : i = j
          · subst hi
            exact .inr (.comes only h)
          · obtain ⟨drive, gen⟩ := resolveLamp_other (u := u) hi
            exact .inl ⟨drive.trans h.1, gen.trans h.2⟩
        · exact .inr (h.stays only i)⟩)
      (fun u ⟨only, h⟩ => h.elim (.comes only) fun h => h.stays only j)
      (fun i u ⟨only, _⟩ h => h.stays only i) ⟨.refl s, .inl ⟨rfl, rfl⟩⟩
  exact reached

end Sys2Proof.Machine
end

section
/-! SUPPORT. The blocks of a switch point, put together (O32). -/

namespace Sys2Proof.Machine

open Sys2Proof

/-! ### The Management Responder (R191, R199) -/

section
variable {s u : State}

theorem abandonIfDue_closed {m} (h : s.mgmt.load = .closed m) : abandonIfDue s = s := by
  rw [abandonIfDue, h]

theorem abandonIfDue_opened {r : LoadRec} (h : s.mgmt.load = .opened r) :
    abandonIfDue s = if 64 ≤ r.abandon then abandonLoad r s else s := by
  rw [abandonIfDue, h]
  simp [abandonDue]

/-- R199: the load closes, and its report rises. -/
theorem abandonLoad_flags (r : LoadRec) (s : State) :
    FlagsRise (s.modMgmt fun m => { m with load := .closed none }) (abandonLoad r s) ∧
      (abandonLoad r s).mgmt.sticky.getLsbD 14 = true := report_flags ..

/-- R191, R199: what a switch point makes of the Management Responder, before a load is abandoned. -/
def mgmtCounted (m : Mgmt) : Mgmt :=
  { m with load := countLoad m.load, requesters := vmap (Option.map countRequester) m.requesters }

theorem mgmtSwitchPoint_eq (s : State) : mgmtSwitchPoint s = abandonIfDue (s.modMgmt mgmtCounted) := rfl

/-- R199: but for the load record, only flags rise where a load may be abandoned. -/
theorem abandonIfDue_frame (s : State) : (abandonIfDue s).mgmt =
    { s.mgmt with load := (abandonIfDue s).mgmt.load, sticky := (abandonIfDue s).mgmt.sticky } := by
  cases h : s.mgmt.load with
  | closed m => rw [abandonIfDue_closed h]
  | opened r =>
    rw [abandonIfDue_opened h]
    split
    · have flags := (abandonLoad_flags r s).1.1
      rw [flags]
      rfl
    · rfl

variable (h : FlagsRise s u)
include h

theorem mgmtSwitchPoint_frame : (mgmtSwitchPoint u).mgmt = { mgmtCounted s.mgmt with
    load := (mgmtSwitchPoint u).mgmt.load, sticky := (mgmtSwitchPoint u).mgmt.sticky } := by
  rw [mgmtSwitchPoint_eq, abandonIfDue_frame, State.modMgmt_mgmt, h.1]
  rfl

theorem mgmtSwitchPoint_closed {m} (hl : s.mgmt.load = .closed m) : (mgmtSwitchPoint u).mgmt.load = .closed m := by
  have load : (u.modMgmt mgmtCounted).mgmt.load = .closed m := by
    rw [State.modMgmt_mgmt, h.1, mgmtCounted, hl]
    rfl
  rw [mgmtSwitchPoint_eq, abandonIfDue_closed load, load]

theorem mgmtSwitchPoint_opened {r : LoadRec} (hl : s.mgmt.load = .opened r) :
    (r.abandon + 1 < 64 → (mgmtSwitchPoint u).mgmt.load = .opened { r with abandon := r.abandon + 1 }) ∧
      (64 ≤ r.abandon + 1 →
        (mgmtSwitchPoint u).mgmt.load = .closed none ∧ (mgmtSwitchPoint u).mgmt.sticky.getLsbD 14 = true) := by
  have load : (u.modMgmt mgmtCounted).mgmt.load = .opened { r with abandon := r.abandon + 1 } := by
    rw [State.modMgmt_mgmt, h.1, mgmtCounted, hl]
    rfl
  rw [mgmtSwitchPoint_eq, abandonIfDue_opened load]
  refine ⟨fun early => ?_, fun due => ?_⟩
  · rw [if_neg (Nat.not_le.2 early), load]
  · obtain ⟨flags, raised⟩ := abandonLoad_flags { r with abandon := r.abandon + 1 } (u.modMgmt mgmtCounted)
    rw [if_pos due]
    exact ⟨by rw [flags.1]; rfl, raised⟩

end

/-! ### The stages of a delivery (R36) -/

section
variable (e : Epoch) (s : State)

/-- R36, R149: the node once steps 1 to 3 of the Tally Resolver are taken. -/
def stepped : State :=
  (keySwitchPoint (talkSwitchPoint (routerSwitchPoint e (trunkSwitchPoint s)))).modTally (tallyStep e)

/-- R149: the node once the lamps are resolved. -/
def resolved : State := forFin 40 resolveLamp (stepped e s)

/-- R156: the node once the buses that changed are announced to the keys. -/
def announced : State := (changedBuses s.tally (resolved e s).tally).foldl announceBus (resolved e s)

/-- R36: the talk of a switch point, the first stage that is more than an update of one block. -/
theorem talked_only : Only talkPointBlocks (routerSwitchPoint e (trunkSwitchPoint s))
    (talkSwitchPoint (routerSwitchPoint e (trunkSwitchPoint s))) := talkSwitchPoint_only _

/-- R36: what the Panel Interface and the Tally Resolver then do is theirs alone. -/
theorem stepped_talked : Only [.panel, .tally] (talkSwitchPoint (routerSwitchPoint e (trunkSwitchPoint s))) (stepped e s) :=
  ((keySwitchPoint_only _).mono (by decide)).trans ((modTally_only ..).mono (by decide))

theorem talked_tally : (talkSwitchPoint (routerSwitchPoint e (trunkSwitchPoint s))).tally = s.tally :=
  (talked_only e s).keep .tally (by decide)

theorem talked_panel : (talkSwitchPoint (routerSwitchPoint e (trunkSwitchPoint s))).panel = s.panel :=
  (talked_only e s).keep .panel (by decide)

theorem stepped_tally : (stepped e s).tally = tallyStep e s.tally := by
  rw [stepped, State.modTally_tally, keySwitchPoint, State.modPanel_tally, talked_tally]

theorem deliver_eq : deliver e s = mgmtSwitchPoint (lampSwitchPoint e (announced e s)) := by
  have kept : (keySwitchPoint (talkSwitchPoint (routerSwitchPoint e (trunkSwitchPoint s)))).tally = s.tally := by
    rw [keySwitchPoint, State.modPanel_tally, talked_tally]
  rw [deliver, tallyDelivery, kept]
  rfl

theorem stepped_router : (stepped e s).router = (routerSwitchPoint e s).router := by
  have talk : (talkSwitchPoint (routerSwitchPoint e (trunkSwitchPoint s))).router = (routerSwitchPoint e s).router :=
    (talked_only e s).keep .router (by decide)
  exact ((stepped_talked e s).keep .router (by decide)).trans talk

theorem stepped_lamp : (stepped e s).lamp = s.lamp := by
  have talk : (talkSwitchPoint (routerSwitchPoint e (trunkSwitchPoint s))).lamp = s.lamp :=
    (talked_only e s).keep .lamp (by decide)
  exact ((stepped_talked e s).keep .lamp (by decide)).trans talk

theorem stepped_sp : (stepped e s).sp = s.sp := by
  have talk : (talkSwitchPoint (routerSwitchPoint e (trunkSwitchPoint s))).sp = s.sp :=
    (talked_only e s).keep .sp (by decide)
  exact ((stepped_talked e s).keep .sp (by decide)).trans talk

theorem stepped_panel : (stepped e s).panel = (keySwitchPoint s).panel := by
  rw [stepped, State.modTally_panel, keySwitchPoint, State.modPanel_panel, talked_panel]
  rfl

theorem stepped_flags : FlagsRise s (stepped e s) := by
  have talk := talkSwitchPoint_flags (routerSwitchPoint e (trunkSwitchPoint s))
  have before : FlagsRise s (routerSwitchPoint e (trunkSwitchPoint s)) := .of_eq rfl
  have after : FlagsRise (talkSwitchPoint (routerSwitchPoint e (trunkSwitchPoint s))) (stepped e s) :=
    .of_eq ((stepped_talked e s).keep .mgmt (by decide))
  exact (before.trans talk).trans after

theorem stepped_choice : (stepped e s).freeCount = s.freeCount + 1 := by
  have talk := talkSwitchPoint_choice (routerSwitchPoint e (trunkSwitchPoint s))
  exact ((stepped_talked e s).keep .choice (by decide)).trans talk

theorem stepped_only : Only [.trunk, .cells, .router, .talk, .panel, .tally, .mgmt, .choice] s (stepped e s) :=
  ((((trunkSwitchPoint_only s).mono (by decide)).trans ((routerSwitchPoint_only ..).mono (by decide))).trans
    ((talked_only e s).mono (by decide))).trans ((stepped_talked e s).mono (by decide))

theorem resolved_lamps : LampsOnly (stepped e s) (resolved e s) := lampsOnly_resolved _

theorem announced_talk : KeysTalk (resolved e s) (announced e s) := announced_keys ..

/-- R36: a block that neither the keys' talk nor the lamps nor the Management Responder take part in. -/
theorem deliver_ended : Only [.panel, .talk, .cells, .mgmt, .lamp] (resolved e s) (deliver e s) := by
  rw [deliver_eq]
  exact (((announced_talk e s).only.mono (by decide)).trans ((lampSwitchPoint_only ..).mono (by decide))).trans
    ((mgmtSwitchPoint_only _).mono (by decide))

theorem deliver_tally : (deliver e s).tally = (resolved e s).tally := (deliver_ended e s).keep .tally (by decide)

theorem deliver_panel : (deliver e s).panel = (announced e s).panel := by
  have ended : ∀ u, (mgmtSwitchPoint (lampSwitchPoint e u)).panel = u.panel := fun u =>
    (mgmtSwitchPoint_only (lampSwitchPoint e u)).keep .panel (by decide)
  rw [deliver_eq, ended]

theorem deliver_lamp : (deliver e s).lamp = (lampSwitchPoint e (resolved e s)).lamp := by
  have kept : (announced e s).lamp = (resolved e s).lamp := (announced_talk e s).only.keep .lamp (by decide)
  have ended : (mgmtSwitchPoint (lampSwitchPoint e (announced e s))).lamp = (lampSwitchPoint e (announced e s)).lamp :=
    (mgmtSwitchPoint_only (lampSwitchPoint e (announced e s))).keep .lamp (by decide)
  rw [deliver_eq, ended, lampSwitchPoint, State.modLamp_lamp, kept]
  rfl

theorem announced_flags : FlagsRise s (lampSwitchPoint e (announced e s)) := by
  have lamps : (resolved e s).mgmt = (stepped e s).mgmt := (resolved_lamps e s).only.keep .mgmt (by decide)
  have pulses : ∀ u, FlagsRise u (lampSwitchPoint e u) := fun u => .of_eq rfl
  exact (((stepped_flags e s).trans (.of_eq lamps)).trans (announced_talk e s).flags).trans (pulses _)

theorem deliver_router : (deliver e s).router = (routerSwitchPoint e s).router := by
  have ended : (deliver e s).router = (resolved e s).router := (deliver_ended e s).keep .router (by decide)
  have lamps : (resolved e s).router = (stepped e s).router := (resolved_lamps e s).only.keep .router (by decide)
  rw [ended, lamps, stepped_router]

theorem deliver_choice : (deliver e s).freeCount = s.freeCount + 1 := by
  have ended : (deliver e s).freeCount = (resolved e s).freeCount := (deliver_ended e s).keep .choice (by decide)
  have lamps : (resolved e s).freeCount = (stepped e s).freeCount := (resolved_lamps e s).only.keep .choice (by decide)
  rw [ended, lamps, stepped_choice]

theorem deliver_blocks : Only [.trunk, .cells, .router, .talk, .panel, .tally, .lamp, .mgmt, .choice] s (deliver e s) :=
  (((stepped_only e s).mono (by decide)).trans ((resolved_lamps e s).only.mono (by decide))).trans
    ((deliver_ended e s).mono (by decide))

theorem deliver_mgmt : (deliver e s).mgmt = (mgmtSwitchPoint (lampSwitchPoint e (announced e s))).mgmt := by
  rw [deliver_eq]

end

end Sys2Proof.Machine
end

section
/-! SUPPORT. What a switch point applies (O32). -/

namespace Sys2Proof.Machine

open Sys2Proof

theorem stepWindow_eq (x : Option Nat) :
    stepWindow x = match x with | none => none | some n => if n ≤ 1 then none else some (n - 1) := by
  cases x <;> rfl

theorem stepRoute_eq (x : RouteKey) : stepRoute x = match x with
    | .idle => .idle
    | .awaiting node tag n => if n ≤ 1 then .refused 50 else .awaiting node tag (n - 1)
    | .confirm n => if n ≤ 1 then .idle else .confirm (n - 1)
    | .refused n => if n ≤ 1 then .idle else .refused (n - 1) := by
  cases x <;> rfl

theorem tallyStep_bus (e : Epoch) (t : Tally) (b : BusId) : (tallyStep e t).buses[b] =
    if b = 15 then { t.buses[b] with active := localBus t } else applyBus e t.buses[b] := vof_get ..

/-- R143: what a switch point makes of a key before any bus is announced. -/
def keyStepped (x : KeyState) : KeyState := { x with window := stepWindow x.window, route := stepRoute x.route }

/-- R178: a generator at a switch point of epoch `e`. -/
def genStepped (e : Epoch) (g : Generator) : Generator := if g.drive = .pulse then { g with pulse := stepPulse e g.pulse } else g

/-- R178: a generator handed its drive at this switch point waits for the next. -/
theorem genStepped_handed (e : Epoch) (d : Drive) (g : Generator) :
    genStepped e (genHanded (some e) d g) = genHanded (some e) d g := by
  by_cases h : d = .pulse
  · simp [genStepped, genHanded, h, stepPulse]
  · simp [genStepped, genHanded, h]

section
variable (e : Epoch) (s : State)

theorem resolved_panel : (resolved e s).panel = (keySwitchPoint s).panel := by
  have lamps : (resolved e s).panel = (stepped e s).panel := (resolved_lamps e s).only.keep .panel (by decide)
  rw [lamps, stepped_panel]

theorem resolved_key (m : MapId) (k : KeyId) : keyState (resolved e s) m k = keyStepped (keyState s m k) := by
  rw [keyState, resolved_panel, keySwitchPoint, State.modPanel_panel]
  exact vmap_get ..

theorem resolved_hears (b : BusId) (m : MapId) (k : KeyId) (cap : Nat) :
    hears (resolved e s) b m k cap ↔ hears s b m k cap := by
  rw [hears, hears, resolved_key, keyEntry, resolved_panel]
  rfl

theorem mem_changedBuses (old new : Tally) (b : BusId) :
    b ∈ changedBuses old new ↔ new.buses[b].active ≠ old.buses[b].active := by
  rw [changedBuses, List.mem_filter, bne_iff_ne]
  exact ⟨fun h => h.2.symm, fun h => ⟨List.mem_finRange b, h.symm⟩⟩

theorem resolved_tally : (resolved e s).tally = { tallyStep e s.tally with drives := (resolved e s).tally.drives } := by
  have lamps := (resolved_lamps e s).tally
  rwa [stepped_tally] at lamps

/-- R149, R159: every lamp shows what the buses and calls after the switch point say. -/
theorem resolved_drive (j : LampId) : (resolved e s).tally.drives[j] = lampDrive (resolved e s).tally s.tally.map[j] := by
  have lamp : LampResolved (stepped e s) (resolved e s) j := lampResolved_all ..
  have frame := resolved_tally e s
  have drive := lamp.1
  rw [lampShows, stepped_tally] at drive
  generalize resolved e s = u at frame drive
  rw [frame]
  rw [frame] at drive
  exact drive

theorem deliver_key (m : MapId) (k : KeyId) : keyState (deliver e s) m k = keyState (announced e s) m k := by
  rw [keyState, deliver_panel, keyState]

theorem deliver_key_frame (m : MapId) (k : KeyId) : keyState (deliver e s) m k = { keyStepped (keyState s m k) with
    resolved := (keyState (deliver e s) m k).resolved, refusedPoints := (keyState (deliver e s) m k).refusedPoints } := by
  rw [deliver_key, ← resolved_key e s]
  exact (announced_talk e s).keys (keyIx m k)

theorem deliver_key_follows {m : MapId} {k : KeyId} {b : BusId} {cap : Nat} (heard : hears s b m k cap)
    (changed : (deliver e s).tally.buses[b].active ≠ s.tally.buses[b].active) :
    (keyState (deliver e s) m k).resolved = resolvePoints (deliver e s).tally b cap := by
  rw [deliver_tally] at changed ⊢
  rw [deliver_key]
  exact announced_follows _ ((mem_changedBuses ..).2 changed) ((resolved_hears e s b m k cap).2 heard)

theorem deliver_key_stands {m : MapId} {k : KeyId}
    (deaf : ∀ b cap, ¬(hears s b m k cap ∧ (deliver e s).tally.buses[b].active ≠ s.tally.buses[b].active)) :
    keyState (deliver e s) m k = keyStepped (keyState s m k) := by
  rw [deliver_key, ← resolved_key e s]
  refine announced_stands _ fun b hb cap heard => deaf b cap ⟨(resolved_hears ..).1 heard, ?_⟩
  rw [deliver_tally]
  exact (mem_changedBuses ..).1 hb

theorem deliver_lamp_frame : (deliver e s).lamp = { s.lamp with gens := (deliver e s).lamp.gens } := by
  have lamps := (resolved_lamps e s).lamp
  rw [stepped_lamp] at lamps
  rw [deliver_lamp, lampSwitchPoint, State.modLamp_lamp, lamps]

theorem deliver_gen (he : s.sp.epoch = some e) (j : LampId) :
    (deliver e s).lamp.gens[j] = if (deliver e s).tally.drives[j] = s.tally.drives[j] then genStepped e s.lamp.gens[j]
      else genHanded (some e) (deliver e s).tally.drives[j] s.lamp.gens[j] := by
  have lamp : LampResolved (stepped e s) (resolved e s) j := lampResolved_all ..
  obtain ⟨drive, gen⟩ := lamp
  have drives : (stepped e s).tally.drives = s.tally.drives := by
    rw [stepped_tally]
    rfl
  have pulsed : (deliver e s).lamp.gens[j] = genStepped e (resolved e s).lamp.gens[j] := by
    rw [deliver_lamp, lampSwitchPoint, State.modLamp_lamp]
    exact vmap_get ..
  rw [drives, stepped_lamp, stepped_sp, he, ← drive] at gen
  rw [pulsed, deliver_tally]
  rw [gen, apply_ite (genStepped e), genStepped_handed]

end

/-- R36: what the delivery of a switch point of epoch `e` makes of each block. -/
structure Applied (e : Epoch) (s t : State) : Prop where
  router : t.router = (routerSwitchPoint e s).router
  trunk : t.trunk = (trunkSwitchPoint s).trunk
  tally : t.tally = { tallyStep e s.tally with drives := t.tally.drives }
  drive : ∀ j : LampId, t.tally.drives[j] = lampDrive t.tally s.tally.map[j]
  lamp : t.lamp = { s.lamp with gens := t.lamp.gens }
  gen : s.sp.epoch = some e → ∀ j : LampId, t.lamp.gens[j] = if t.tally.drives[j] = s.tally.drives[j]
    then genStepped e s.lamp.gens[j] else genHanded (some e) t.tally.drives[j] s.lamp.gens[j]
  panel : t.panel = { s.panel with keys := t.panel.keys }
  key : ∀ m k, keyState t m k = { keyStepped (keyState s m k) with
    resolved := (keyState t m k).resolved, refusedPoints := (keyState t m k).refusedPoints }
  follows : ∀ m k b cap, hears s b m k cap → t.tally.buses[b].active ≠ s.tally.buses[b].active →
    (keyState t m k).resolved = resolvePoints t.tally b cap
  stands : ∀ m k, (∀ b cap, ¬(hears s b m k cap ∧ t.tally.buses[b].active ≠ s.tally.buses[b].active)) →
    keyState t m k = keyStepped (keyState s m k)
  mgmt : ∃ u, FlagsRise s u ∧ t.mgmt = (mgmtSwitchPoint u).mgmt
  choice : t.freeCount = s.freeCount + 1
  only : Only [.trunk, .cells, .router, .talk, .panel, .tally, .lamp, .mgmt, .choice] s t

theorem deliver_applied (e : Epoch) (s : State) : Applied e s (deliver e s) where
  router := deliver_router e s
  trunk := deliver_trunk e s
  tally := by
    rw [deliver_tally]
    exact resolved_tally e s
  drive j := by
    rw [deliver_tally]
    exact resolved_drive e s j
  lamp := deliver_lamp_frame e s
  gen := deliver_gen e s
  panel := by
    have talk := (announced_talk e s).panel
    rw [resolved_panel] at talk
    rw [deliver_panel]
    exact talk
  key := deliver_key_frame e s
  follows _ _ _ _ := deliver_key_follows e s
  stands _ _ := deliver_key_stands e s
  mgmt := ⟨_, announced_flags e s, deliver_mgmt e s⟩
  choice := deliver_choice e s
  only := deliver_blocks e s

/-- Settles O32: each block by the rule for its stage of the delivery. -/
theorem switchPointDelivered : Obligations.SwitchPointDelivered := by
  intro e s
  have applied := deliver_applied e s
  generalize deliver e s = t at applied
  intro t' reaches
  have reachedIs : ∀ x, reached e x = reaches x := fun x => by
    cases x with
    | next => rfl
    | epoch T => exact reached_epoch e T
  obtain ⟨u, flags, mgmt⟩ := applied.mgmt
  have buses : t.tally.buses = (tallyStep e s.tally).buses := by rw [applied.tally]
  refine ⟨fun d => ?_, ?_, fun b hb => ?_, fun id => ?_, fun i => ?_, ?_, applied.drive, ?_,
    fun he j => ⟨fun h => (applied.gen he j).trans (if_pos h), fun h => (applied.gen he j).trans (if_neg h)⟩, applied.lamp,
    fun m k => ⟨?_, fun b cap ⟨fn, active, changed⟩ => applied.follows m k b cap ⟨fn, active⟩ changed, fun deaf => ?_⟩,
    applied.panel, fun i => ?_, fun m h => ?_, fun r h => ?_, ?_, ?_, fun p => ?_, ?_, applied.choice, applied.only⟩
  · show t.router.routes[d] = _
    rw [applied.router]
    refine (vmap_get ..).trans ?_
    unfold applyPending
    cases s.router.routes[d].pending with
    | none => rfl
    | some p => simp only [reachedIs]
  · show t.router = { s.router with routes := t.router.routes }
    rw [applied.router]
    rfl
  · show t.tally.buses[b] = _
    rw [buses, tallyStep_bus, if_neg hb]
    unfold applyBus
    cases s.tally.buses[b].pending with
    | none => rfl
    | some p =>
      obtain ⟨set, x⟩ := p
      simp only [reachedIs]
  · have own : t.tally.buses[(15 : BusId)].active = localBus s.tally := by
      rw [buses, tallyStep_bus, if_pos rfl]
    show inSet t.tally.buses[(15 : BusId)].active id = true ↔ _
    rw [own]
    exact inSet_localBus ..
  · show t.tally.gpiState[i] = _
    rw [applied.tally]
    exact vmap_get ..
  · show t.tally.calls = _
    rw [applied.tally]
    exact countedCalls _
  · show t.tally = { s.tally with
      buses := t.tally.buses, gpiState := t.tally.gpiState, calls := t.tally.calls, drives := t.tally.drives }
    rw [applied.tally]
    rfl
  · exact (applied.key m k).trans (congrArg₂ (fun window route => { keyState s m k with
      window := window, route := route
      resolved := (keyState t m k).resolved, refusedPoints := (keyState t m k).refusedPoints })
      (stepWindow_eq _) (stepRoute_eq _))
  · have stands := applied.stands m k fun b cap ⟨heard, changed⟩ => deaf b cap ⟨heard.1, heard.2, changed⟩
    show (keyState t m k).resolved = _ ∧ (keyState t m k).refusedPoints = _
    rw [stands]
    exact ⟨rfl, rfl⟩
  · show t.mgmt.requesters[i] = _
    rw [mgmt, mgmtSwitchPoint_frame flags]
    exact vmap_get ..
  · show t.mgmt.load = _
    rw [mgmt]
    exact mgmtSwitchPoint_closed flags h
  · show (_ → t.mgmt.load = _) ∧ (_ → t.mgmt.load = _ ∧ t.mgmt.sticky.getLsbD 14 = true)
    rw [mgmt]
    exact mgmtSwitchPoint_opened flags h
  · show t.mgmt.params = _
    rw [mgmt, mgmtSwitchPoint_frame flags]
    rfl
  · show t.mgmt.showLock = _
    rw [mgmt, mgmtSwitchPoint_frame flags]
    rfl
  · show portOf t.trunk p = _
    rw [applied.trunk]
    cases p <;> rfl
  · show t.trunk = { s.trunk with conflictReported := false, east := t.trunk.east, west := t.trunk.west }
    rw [applied.trunk]
    rfl

end Sys2Proof.Machine
end

section
/-! SUPPORT. The reference and the switch points that a node makes (O30, O31). -/

namespace Sys2Proof.Machine

open Sys2Proof

/-- R2: at a ring member a command acts. -/
theorem act_member {s : State} (h : isMember s.trunk = true) (f : State → State) : act f s = .next (f s) := by
  rw [act, if_pos h]

section
variable {s : State}

/-! ### The reference (R28, R29) -/

theorem takePulse_ignored (h : activeHead s.trunk = false ∨ s.sp.pulseTaken = true) : takePulse s = s := by
  have idle : ¬(activeHead s.trunk && !s.sp.pulseTaken) = true := by
    rcases h with h | h <;> simp [h]
  rw [takePulse, if_neg idle]

theorem takePulse_first (ha : activeHead s.trunk = true) (hp : s.sp.pulseTaken = false) :
    takePulse s = restoreReference (s.modSp fun u =>
      { u with pulseTaken := true, sincePulse := 0, schedule := schedulePulse s.mgmt.params.offset u.schedule }) := by
  rw [takePulse, if_pos (by simp [ha, hp])]

theorem restoreReference_ok (h : s.sp.ref = .ok) : restoreReference s = s.modSp fun u => { u with ref := .ok } := by
  rw [restoreReference, if_neg (by simp [h]), ← h]
  rfl

theorem restoreReference_lost (h : s.sp.ref = .lost) :
    restoreReference s = report .referenceOk (epochBytes s.sp.epoch) (s.modSp fun u => { u with ref := .ok }) := by
  rw [restoreReference, if_pos h]
  rfl

theorem referenceDue_iff : referenceDue s = true ↔
    activeHead s.trunk = true ∧ s.sp.ref = .ok ∧ 2 * s.mgmt.params.interval ≤ s.sp.sincePulse := by
  simp [referenceDue, and_assoc]

theorem loseReference_due (h : referenceDue s = true) : loseReference s =
    report .referenceLost (epochBytes s.sp.epoch) (s.modSp fun u => { u with ref := .lost }) := by
  rw [loseReference, if_pos h]
  rfl

theorem loseReference_early (h : ¬referenceDue s = true) : loseReference s = s := if_neg h

/-! ### The hold-off (R31) -/

theorem holdOffOver_iff : holdOffOver s = true ↔
    activeHead s.trunk = true ∧ s.sp.epoch = none ∧ s.mgmt.params.interval ≤ s.sp.sinceReset := by
  simp [holdOffOver, and_assoc]

theorem exec_epochHoldOffEnd (hm : isMember s.trunk = true) : exec .epochHoldOffEnd s =
    .next (if holdOffOver s then s.modSp fun u => { u with holdEnded := true } else s) := act_member hm _

theorem holdingOff_iff : holdingOff s = true ↔
    s.sp.epoch = none ∧ s.sp.holdEnded = false ∧ s.sp.sinceReset < s.mgmt.params.interval := by
  simp [holdingOff, and_assoc]

theorem headMay_iff : headMay s = true ↔ s.sp.made = false ∧ ¬holdingOff s = true := by
  simp [headMay]

theorem headMay_eq_false_iff : headMay s = false ↔ s.sp.made = true ∨ holdingOff s = true := by
  simp [headMay, or_iff_not_imp_left]

/-! ### The schedule (R29) -/

theorem takeDue_eq_none {l : List Nat} (h : 0 ∉ l) : takeDue l = none := by
  induction l with
  | nil => rfl
  | cons n rest ih =>
    obtain ⟨hn, hrest⟩ := List.ne_and_not_mem_of_not_mem_cons h
    rw [takeDue, if_neg hn.symm, ih hrest]
    rfl

theorem takeDue_append {pre : List Nat} (post : List Nat) (h : 0 ∉ pre) :
    takeDue (pre ++ 0 :: post) = some (pre ++ post) := by
  induction pre with
  | nil => rfl
  | cons n rest ih =>
    obtain ⟨hn, hrest⟩ := List.ne_and_not_mem_of_not_mem_cons h
    rw [List.cons_append, takeDue, if_neg hn.symm, ih hrest]
    rfl

theorem scheduledPoint_other (h : activeHead s.trunk = false) : scheduledPoint s = s := if_neg (by simp [h])

theorem scheduledPoint_empty (h : takeDue s.sp.schedule = none) : scheduledPoint s = s := by
  unfold scheduledPoint
  split
  · rw [h]
  · rfl

/-- R29, R31: the entry leaves the list, whether its switch point is made or not. -/
theorem scheduledPoint_due {l : List Nat} (ha : activeHead s.trunk = true) (h : takeDue s.sp.schedule = some l) :
    scheduledPoint s = if headMay s then makeHead .reference (s.modSp fun u => { u with schedule := l })
      else s.modSp fun u => { u with schedule := l } := by
  rw [scheduledPoint, if_pos ha, h]
  rfl

/-! ### Free run (R30, R35) -/

theorem headFreeRunDue_iff : headFreeRunDue s = true ↔ activeHead s.trunk = true ∧ s.sp.ref = .lost ∧
    s.mgmt.params.interval ≤ s.sp.freeRun ∧ headMay s = true := by
  simp [headFreeRunDue, and_assoc]

theorem exec_headFreeRun (hm : isMember s.trunk = true) : exec .headFreeRun s =
    .next (if headFreeRunDue s then makeHead .headFreeRun s else s) := act_member hm _

theorem exec_headFreeRun_early (hm : isMember s.trunk = true) (h : ¬headFreeRunDue s = true) :
    exec .headFreeRun s = .next s := by
  rw [exec_headFreeRun hm, if_neg h]

theorem freeRuns_iff (t : Trunk) : freeRuns t = true ↔ content t .east = .originated ∨ content t .west = .originated ∨
    (content t .east = .idle ∧ content t .west = .idle) := by
  simp [freeRuns, or_assoc]

/-- R35: a local switch point falls due. -/
def localDue (s : State) : Prop :=
  activeHead s.trunk = false ∧ freeRuns s.trunk = true ∧ s.mgmt.params.interval ≤ s.sp.freeRun

theorem localPoint_due {c : Epoch} (hc : s.sp.epoch = some c) (h : localDue s) : localPoint s = makeLocal c s := by
  obtain ⟨ha, hf, hi⟩ := h
  rw [localPoint, if_pos (by simp [ha, hf, hi]), hc]

theorem localPoint_early (h : s.sp.epoch = none ∨ ¬localDue s) : localPoint s = s := by
  unfold localPoint
  split
  next due =>
    have falls : localDue s := by simpa [localDue, and_assoc] using due
    rw [h.resolve_right (not_not_intro falls)]
  next => rfl

end

/-- Settles O30: the pulse by the state of the reference, the loss and the hold-off by whether they are due. -/
theorem referenceMoved : Obligations.ReferenceMoved := by
  intro s hm lost free pulsed
  have pulse : exec .referencePulse s = .next (takePulse s) := act_member hm _
  have loss : exec .referenceLost s = .next (loseReference s) := act_member hm _
  refine ⟨fun h => ?_, fun ha hp ho => ?_, fun ha hp hl => ?_, fun h => ?_, fun h => ?_, fun h => ?_, fun h => ?_⟩
  · rw [pulse, takePulse_ignored h]
  · rw [pulse, takePulse_first ha hp, restoreReference_ok (by exact ho)]
    rfl
  · rw [pulse, takePulse_first ha hp, restoreReference_lost (by exact hl)]
    rfl
  · rw [loss, loseReference_due (referenceDue_iff.2 h)]
    rfl
  · rw [loss, loseReference_early (mt referenceDue_iff.1 h)]
  · rw [exec_epochHoldOffEnd hm, if_pos (holdOffOver_iff.2 h)]
    rfl
  · rw [exec_epochHoldOffEnd hm, if_neg (mt holdOffOver_iff.1 h)]

/-- Settles O31: the local switch point by whether it is due; at an active head, the entry that the schedule gives up and
the free run, each by whether the head may make its switch point. -/
theorem switchPointsMade : Obligations.SwitchPointsMade := by
  intro s hm e held made ends due
  have localRun : exec .localSwitchPoint s = .next (localPoint s) := act_member hm _
  have scheduled : exec .scheduledSwitchPoint s = .next (scheduledPoint s) := act_member hm _
  have falls : localDue s ↔ due := and_congr_right fun _ => and_congr_left fun _ => freeRuns_iff s.trunk
  refine ⟨fun c hc h => ?_, fun h => ?_, fun ha => ⟨?_, ?_⟩, fun ha =>
    ⟨fun h => ?_, fun pre post hs hp => ?_, fun hl hi ht hh => ?_, fun h => ?_⟩⟩
  · rw [localRun, localPoint_due hc (falls.2 h)]
    rfl
  · rw [localRun, localPoint_early (h.imp_right (mt falls.1))]
  · rw [scheduled, scheduledPoint_other ha]
  · exact exec_headFreeRun_early hm fun run => absurd (headFreeRunDue_iff.1 run).1 (by simp [ha])
  · rw [scheduled, scheduledPoint_empty (takeDue_eq_none h)]
  · have entry : takeDue s.sp.schedule = some (pre ++ post) := hs ▸ takeDue_append post hp
    rw [scheduled, scheduledPoint_due ha entry]
    refine ⟨fun ht hh => ?_, fun h => ?_⟩
    · rw [if_pos (headMay_iff.2 ⟨ht, mt holdingOff_iff.1 hh⟩)]
      rfl
    · have may : headMay s = false := headMay_eq_false_iff.2 (h.imp_right holdingOff_iff.2)
      rw [may]
      rfl
  · have run : headFreeRunDue s = true :=
      headFreeRunDue_iff.2 ⟨ha, hl, hi, headMay_iff.2 ⟨ht, mt holdingOff_iff.1 hh⟩⟩
    rw [exec_headFreeRun hm, if_pos run]
    rfl
  · refine exec_headFreeRun_early hm fun run => ?_
    obtain ⟨-, lost, reached, may⟩ := headFreeRunDue_iff.1 run
    obtain ⟨fresh, free⟩ := headMay_iff.1 may
    rcases h with used | early | stands | off
    · exact used lost
    · exact absurd reached (Nat.not_le.2 early)
    · exact absurd stands (by simp [fresh])
    · exact free (holdingOff_iff.2 off)

end Sys2Proof.Machine
end

section
/-! SUPPORT. TALLY_SET and the sample of the GPIs (O37). -/

namespace Sys2Proof.Machine

open Sys2Proof

/-! ### Late targets (R38) -/

/-- R38: a target is late when it stands at the current epoch or 128 and more in front of it. -/
theorem isLate_epoch (c t : Epoch) : isLate (some c) (.epoch t) = true ↔
    (t.toNat + 256 - c.toNat) % 256 = 0 ∨ 128 ≤ (t.toNat + 256 - c.toNat) % 256 := by
  have distance : (t - c).toNat = (t.toNat + 256 - c.toNat) % 256 := by
    rw [BitVec.toNat_sub]
    have := t.isLt
    have := c.isLt
    omega
  simp [isLate, distance]

theorem heldTarget_late {c : Option Epoch} {t : Target} (h : isLate c t = true) : heldTarget c t = .next := if_pos h

theorem heldTarget_early {c : Option Epoch} {t : Target} (h : isLate c t = false) : heldTarget c t = t :=
  if_neg (by simp [h])

/-! ### TALLY_SET (R148) -/

/-- R148: the pending part of a bus replaced. -/
def holdBus (b : BusId) (set : SourceSet) (x : Target) (s : State) : State :=
  s.modTally fun t => { t with buses := vmod t.buses b fun y => { y with pending := some (set, x) } }

section
variable {src : Byte} {m : TallySetMsg} {s : State}

theorem takeTallySet_rejected (h : 15 ≤ m.bus.toNat ∨ readTarget m.mode m.epoch = none) :
    takeTallySet src m s = s.modTally fun t => { t with rejects := satAdd t.rejects 1 } := by
  unfold takeTallySet
  rcases h with range | unknown
  · rw [if_neg (Nat.not_lt.2 range)]
  · rw [unknown]
    split
    next absent => cases absent
    next => rfl

variable {b : BusId} {x : Target}

theorem takeTallySet_read (hb : m.bus.toNat = b.val) (h15 : b.val < 15) (hx : readTarget m.mode m.epoch = some x) :
    takeTallySet src m s = if isLate s.sp.epoch x
      then report .tallyLate ([m.bus, m.epoch] ++ epochBytes s.sp.epoch ++ [src])
        (holdBus b m.set (heldTarget s.sp.epoch x) s)
      else holdBus b m.set (heldTarget s.sp.epoch x) s := by
  have bus : asFin 16 m.bus.toNat = some b := by
    rw [hb]
    exact dif_pos b.isLt
  rw [takeTallySet, if_pos (hb ▸ h15), bus, hx]
  rfl

theorem takeTallySet_early (hb : m.bus.toNat = b.val) (h15 : b.val < 15) (hx : readTarget m.mode m.epoch = some x)
    (early : isLate s.sp.epoch x = false) : takeTallySet src m s = holdBus b m.set x s := by
  rw [takeTallySet_read hb h15 hx, heldTarget_early early, if_neg (by simp [early])]

theorem takeTallySet_late (hb : m.bus.toNat = b.val) (h15 : b.val < 15) (hx : readTarget m.mode m.epoch = some x)
    (late : isLate s.sp.epoch x = true) : takeTallySet src m s =
      report .tallyLate ([m.bus, m.epoch] ++ epochBytes s.sp.epoch ++ [src]) (holdBus b m.set .next s) := by
  rw [takeTallySet_read hb h15 hx, heldTarget_late late, if_pos late]

end

theorem readTarget_unknown {mode : Byte} (h : 2 ≤ mode.toNat) (epoch : Byte) : readTarget mode epoch = none := by
  have h0 : mode ≠ 0 := by rintro rfl; exact absurd h (by decide)
  have h1 : mode ≠ 1 := by rintro rfl; exact absurd h (by decide)
  rw [readTarget, if_neg h0, if_neg h1]

/-! ### The sample of a GPI (R151, R152) -/

section
variable {closed : Bool} {g : GpiEntry} {x : GpiState}

theorem sampleGpi_disabled (h : g.enable = false) : sampleGpi closed g x = x := by
  simp [sampleGpi, h]

theorem sampleGpi_enabled (h : g.enable = true) : sampleGpi closed g x =
    if (closed != g.invert) = x.cond then { x with run := 0 }
    else if g.debounce < x.run + 1 then
      { cond := closed != g.invert, run := 0, mark := x.mark || ((closed != g.invert) && g.latch) }
    else { x with run := x.run + 1 } := by
  rw [sampleGpi, if_neg (by simp [h])]

theorem sampleGpi_same (h : g.enable = true) (hi : (closed != g.invert) = x.cond) :
    sampleGpi closed g x = { x with run := 0 } := by
  rw [sampleGpi_enabled h, if_pos hi]

theorem sampleGpi_counting (h : g.enable = true) (hi : (closed != g.invert) ≠ x.cond) (hr : x.run + 1 ≤ g.debounce) :
    sampleGpi closed g x = { x with run := x.run + 1 } := by
  rw [sampleGpi_enabled h, if_neg hi, if_neg (Nat.not_lt.2 hr)]

theorem sampleGpi_moved (h : g.enable = true) (hi : (closed != g.invert) ≠ x.cond) (hr : g.debounce < x.run + 1) :
    sampleGpi closed g x =
      { cond := closed != g.invert, run := 0, mark := x.mark || ((closed != g.invert) && g.latch) } := by
  rw [sampleGpi_enabled h, if_neg hi, if_pos hr]

end

theorem takeGpiSample_taken {s : State} (h : s.tally.gpiDue = false) (closed : BitVec 16) : takeGpiSample closed s = s :=
  if_neg (by simp [h])

theorem takeGpiSample_due {s : State} (h : s.tally.gpiDue = true) (closed : BitVec 16) :
    takeGpiSample closed s = s.modTally fun t => { t with
      gpiDue := false
      gpiState := vof 16 fun i => sampleGpi (closed.getLsbD i.val) t.gpi[i] t.gpiState[i] } := if_pos h

/-- Settles O37: TALLY_SET by what it reads and by the lateness of its target; the sample GPI by GPI. -/
theorem tallyInputsTaken : Obligations.TallyInputsTaken := by
  refine ⟨fun s src tag m reaches => ?_, fun closed s hm => ?_⟩
  · have taken : exec (.tallySet src tag m) s = .next (takeTallySet src m s) := act_fromCell reaches _
    rw [taken]
    refine ⟨fun h => ?_, ?_⟩
    · rw [takeTallySet_rejected (h.imp_right fun unknown => readTarget_unknown unknown m.epoch)]
      rfl
    intro b hb h15 held
    refine ⟨fun next => ?_, fun epoch => ?_⟩
    · have target : readTarget m.mode m.epoch = some .next := by rw [next]; rfl
      have early : isLate s.sp.epoch .next = false := by cases s.sp.epoch <;> rfl
      rw [takeTallySet_early hb h15 target early]
      rfl
    have target : readTarget m.mode m.epoch = some (.epoch m.epoch) := if_pos epoch
    refine ⟨fun unknown => ?_, ?_⟩
    · rw [takeTallySet_early hb h15 target (by rw [unknown]; rfl)]
      rfl
    intro c known diff
    have late : isLate s.sp.epoch (.epoch m.epoch) = true ↔ diff = 0 ∨ 128 ≤ diff := known ▸ isLate_epoch c m.epoch
    refine ⟨fun ⟨ahead, near⟩ => ?_, fun behind => ?_⟩
    · have early : isLate s.sp.epoch (.epoch m.epoch) = false := Bool.eq_false_iff.2 (mt late.1 (by omega))
      rw [takeTallySet_early hb h15 target early]
      rfl
    · rw [takeTallySet_late hb h15 target (late.2 behind), known]
      rfl
  · have taken : exec (.gpiSample closed) s = .next (takeGpiSample closed s) := act_member hm _
    refine ⟨fun h => by rw [taken, takeGpiSample_taken h], fun h =>
      ⟨_, taken, takeGpiSample_only closed s, ?_, ?_⟩⟩
    · rw [takeGpiSample_due h]
      rfl
    intro i g x y input
    have sampled : y = sampleGpi (closed.getLsbD i.val) g x := by
      show (takeGpiSample closed s).tally.gpiState[i] = _
      rw [takeGpiSample_due h]
      exact vof_get ..
    rw [sampled]
    refine ⟨sampleGpi_disabled, sampleGpi_same, sampleGpi_counting, fun on moves past => ?_⟩
    rw [sampleGpi_moved on moves past]
    exact ⟨rfl, rfl, by simp [input]⟩

end Sys2Proof.Machine
end

section
/-! SUPPORT. What the blocks above the Cell Engine do to it: they create cells and report, and nothing else (R47, R203). Said
once of every operation, so that a fact about creations and flags is a fact about all of them. -/

namespace Sys2Proof.Machine

open Sys2Proof

/-- From the first state to the second, cells were created and flags set, and nothing else was done to the Trunk Interface,
the Cell Engine and the Management Responder. -/
inductive Creates : State → State → Prop where
  | other {s t : State} (trunk : t.trunk = s.trunk) (cells : t.cells = s.cells) (mgmt : t.mgmt = s.mgmt) : Creates s t
  | flag (k : EventKind) (s : State) : Creates s (s.modMgmt fun m => { m with sticky := setSticky k m.sticky })
  | cell (kind : CellKind) (dest : Byte) (tag : Option Byte) (payload : List Byte) (s : State) :
      Creates s (createCell kind dest tag payload s).1
  | trans {s t u : State} : Creates s t → Creates t u → Creates s u

theorem Creates.refl (s : State) : Creates s s := .other rfl rfl rfl

theorem Creates.ite {s t u : State} {p : Prop} [Decidable p] (h : p → Creates s t) (g : ¬p → Creates s u) :
    Creates s (if p then t else u) := by
  split
  · exact h ‹_›
  · exact g ‹_›

theorem Creates.foldl {α : Type} {f : State → α → State} (h : ∀ s x, Creates s (f s x)) (l : List α) (s : State) :
    Creates s (l.foldl f s) := by
  induction l generalizing s with
  | nil => exact .refl s
  | cons x l ih => exact (h s x).trans (ih _)

theorem Creates.forFin {n : Nat} {f : Fin n → State → State} (h : ∀ i s, Creates s (f i s)) (s : State) :
    Creates s (forFin n f s) := .foldl (fun s i => h i s) _ s

/-- A step of other blocks creates nothing. -/
theorem Only.creates {bs : List Block} {s t : State} (h : Only bs s t)
    (hb : Block.trunk ∉ bs ∧ Block.cells ∉ bs ∧ Block.mgmt ∉ bs := by decide) : Creates s t :=
  .other (h.keep .trunk hb.1) (h.keep .cells hb.2.1) (h.keep .mgmt hb.2.2)

/-- The flags that a run of creations leaves are those before it, and more. -/
theorem Creates.flags {s t : State} (h : Creates s t) : FlagsRise s t := by
  induction h with
  | other _ _ mgmt => exact .of_eq mgmt
  | flag k s => exact .set k s
  | cell kind dest tag payload s => exact createCell_flags ..
  | trans _ _ ih ih' => exact ih.trans ih'

theorem Creates.trunk {s t : State} (h : Creates s t) : t.trunk = s.trunk := by
  induction h with
  | other trunk _ _ => exact trunk
  | flag k s => rfl
  | cell kind dest tag payload s => exact (createCell_only ..).keep .trunk (by decide)
  | trans _ _ ih ih' => exact ih'.trans ih

theorem sendCell_creates (kind : CellKind) (dest : Byte) (tag : Option Byte) (payload : List Byte) (s : State) :
    Creates s (sendCell kind dest tag payload s) := .cell ..

theorem report_creates (k : EventKind) (fields : List Byte) (s : State) : Creates s (report k fields s) := by
  unfold report
  dsimp only
  split
  · exact (Creates.flag k s).trans (sendCell_creates ..)
  · exact .flag k s

/-! ### The Feed Router -/

theorem acceptTake_creates (r : Byte) (ps : List (DestId × Source)) (t : Target) (s : State) :
    Creates s (acceptTake r ps t s).1 := by
  have set : Creates s (ps.foldl (fun acc p => setPending r (heldTarget s.sp.epoch t) p acc) s) :=
    .foldl (fun _ _ => (modRoute_only ..).creates) ps s
  exact .ite (fun _ => set.trans (report_creates ..)) fun _ => set

theorem routerTake_creates (r : Byte) (ps : List (Byte × Half)) (t : Target) (s : State) :
    Creates s (routerTake r ps t s).1 := by
  unfold routerTake
  split
  · exact acceptTake_creates ..
  · exact .refl s
  · exact (recordRefusal_only ..).creates

theorem takeRequest_creates (r : Byte) (m : TakeMsg) (s : State) : Creates s (takeRequest r m s).1 := by
  unfold takeRequest
  dsimp only
  split
  · exact .refl s
  · split
    · exact .refl s
    · exact routerTake_creates ..

/-! ### The Talk Authority -/

theorem announceListOn_creates (l : ListId) (t : Talker) (s : State) : Creates s (announceListOn l t s) := by
  cases l with
  | direct m => exact .refl s
  | conf c => exact sendCell_creates ..

theorem announceListOff_creates (l : ListId) (n : Byte) (i : OriginId) (s : State) :
    Creates s (announceListOff l n i s) := by
  cases l with
  | direct m => exact .refl s
  | conf c => exact sendCell_creates ..

theorem outcomeAt_creates (target : TalkTarget) (i : OriginId) (o : TalkOutcome) (s : State) :
    Creates s (outcomeAt target i o s) := by
  have unwanted : Creates s (if o = .granted then sendTalkOff target i s else s) :=
    .ite (fun _ => sendCell_creates ..) fun _ => .refl s
  unfold outcomeAt
  dsimp only
  split
  · exact .ite (fun _ => (modOrigin_only ..).creates) fun _ => unwanted
  · exact unwanted

theorem answerTalk_creates (n : Byte) (i : OriginId) (target : TalkTarget) (o : TalkOutcome) (tag : Option Byte)
    (s : State) : Creates s (answerTalk n i target o tag s) :=
  .ite (fun _ => outcomeAt_creates ..) fun _ => sendCell_creates ..

theorem admitTo_creates (l : ListId) (target : TalkTarget) (t : Talker) (tag : Option Byte) (s : State) :
    Creates s (admitTo l target t tag s) := by
  have listed : ∀ x, Creates s (modList l (fun _ => x) s) := fun x => (modList_only ..).creates
  unfold admitTo
  dsimp only
  split
  · exact ((listed _).trans (announceListOn_creates ..)).trans (answerTalk_creates ..)
  · exact ((listed _).trans (announceListOn_creates ..)).trans (answerTalk_creates ..)
  · exact ((((listed _).trans (announceListOff_creates ..)).trans (announceListOn_creates ..)).trans
      (answerTalk_creates ..)).trans (answerTalk_creates ..)
  · exact answerTalk_creates ..

theorem takeTalkOn_creates (src tag : Byte) (m : TalkOnMsg) (s : State) : Creates s (takeTalkOn src tag m s) := by
  unfold takeTalkOn handleTalkOn
  split
  · exact .refl s
  · split
    · exact .refl s
    · exact admitTo_creates ..

theorem handleTalkOff_creates (target : TalkTarget) (n : Byte) (i : OriginId) (s : State) :
    Creates s (handleTalkOff target n i s) := by
  unfold handleTalkOff
  split
  · exact .refl s
  · exact .ite (fun _ => (modList_only ..).creates.trans (announceListOff_creates ..)) fun _ => .refl s

theorem takeTalkOff_creates (src : Byte) (m : TalkOffMsg) (s : State) : Creates s (takeTalkOff src m s) := by
  unfold takeTalkOff
  split
  · exact handleTalkOff_creates ..
  · exact .refl s

theorem takeTalkReply_creates (m : TalkReplyMsg) (s : State) : Creates s (takeTalkReply m s) := by
  unfold takeTalkReply
  split
  · exact outcomeAt_creates ..
  · exact .refl s

theorem sendOrigin_creates (i : OriginId) (s : State) : Creates s (sendOrigin i s) := by
  unfold sendOrigin
  split
  · exact .refl s
  · dsimp only
    split
    · exact (modOrigin_only ..).creates.trans (admitTo_creates ..)
    · exact (modOrigin_only ..).creates.trans (sendCell_creates ..)

theorem createOrigin_creates (m : MapId) (k : KeyId) (sub : Option (Fin 4)) (target : TalkTarget) (s : State) :
    Creates s (createOrigin m k sub target s).1 := by
  unfold createOrigin
  split
  · exact .refl s
  · exact (modTalk_only ..).creates.trans (sendOrigin_creates ..)

theorem endOrigin_creates (i : OriginId) (s : State) : Creates s (endOrigin i s) := by
  unfold endOrigin
  split
  · exact .refl s
  · dsimp only
    split
    · exact (modTalk_only ..).creates.trans (handleTalkOff_creates ..)
    · exact (modTalk_only ..).creates.trans (sendCell_creates ..)

theorem endKeyOrigin_creates (m : MapId) (k : KeyId) (sub : Option (Fin 4)) (s : State) :
    Creates s (endKeyOrigin m k sub s) := by
  unfold endKeyOrigin
  split
  · exact .refl s
  · exact endOrigin_creates ..

theorem endKeyOrigins_creates (m : MapId) (k : KeyId) (s : State) : Creates s (endKeyOrigins m k s) :=
  (endKeyOrigin_creates ..).trans (.forFin (fun _ _ => endKeyOrigin_creates ..) _)

theorem endMapOrigins_creates (m : MapId) (s : State) : Creates s (endMapOrigins m s) := by
  refine .forFin (fun i s => ?_) s
  split
  · exact .ite (fun _ => endOrigin_creates ..) fun _ => .refl s
  · exact .refl s

theorem resendOrigin_creates (i : OriginId) (s : State) : Creates s (resendOrigin i s) :=
  (modOrigin_only ..).creates.trans (sendOrigin_creates ..)

theorem refreshOrigin_creates (i : OriginId) (s : State) : Creates s (refreshOrigin i s) :=
  .ite (fun _ => (modOrigin_only ..).creates.trans (resendOrigin_creates ..)) fun _ => (modOrigin_only ..).creates

theorem reportExpired_creates (l : ListId) (n : Byte) (i : OriginId) (s : State) :
    Creates s (reportExpired l n i s) := by
  unfold reportExpired
  split
  · exact .refl s
  · exact report_creates ..

theorem expireTalker_creates (l : ListId) (n : Byte) (i : OriginId) (s : State) :
    Creates s (expireTalker l n i s) := by
  have dropped : Creates s (modList l (dropTalker n i) s) := (modList_only ..).creates
  cases l with
  | direct m => exact dropped.trans (reportExpired_creates ..)
  | conf c =>
    exact .ite (fun _ => (dropped.trans (sendCell_creates ..)).trans (reportExpired_creates ..)) fun _ => dropped

theorem countdownList_creates (l : ListId) (s : State) : Creates s (countdownList l s) :=
  (modList_only ..).creates.trans (.foldl (fun _ _ => expireTalker_creates ..) _ _)

theorem refreshOrigins_creates (p : OriginId → Bool) (s : State) : Creates s (refreshOrigins p s) :=
  .forFin (fun _ s => .ite (fun _ => refreshOrigin_creates ..) fun _ => .refl s) s

theorem talkSwitchPoint_creates (s : State) : Creates s (talkSwitchPoint s) := by
  have counted : ∀ s, Creates s (countdownLeases s) := fun s =>
    (Creates.forFin (fun _ _ => countdownList_creates ..) s).trans (.forFin (fun _ _ => countdownList_creates ..) _)
  exact (((countChoice_only s).creates.trans (refreshOrigins_creates ..)).trans (counted _)).trans
    (refreshOrigins_creates ..)

/-! ### Lamp lines, tallies and clipped outputs -/

theorem autoSpare_creates (j : LampId) (w : WireId) (s : State) : Creates s (autoSpare j w s) := by
  unfold autoSpare
  split
  · split
    · exact report_creates ..
    · exact .ite (fun _ => report_creates ..) fun _ => (modLamp_only ..).creates.trans (report_creates ..)
  · exact .refl s

theorem faultOn_creates (j : LampId) (w : WireId) (s : State) : Creates s (faultOn j w s) := by
  have latched : ∀ s, Creates s (latchLine j w s) := fun s =>
    ((modLine_only ..).creates.trans (report_creates ..)).trans (autoSpare_creates ..)
  exact .ite (fun _ => (modLine_only ..).creates.trans (latched _)) fun _ =>
    (modLine_only ..).creates.trans (modLine_only ..).creates

theorem takeFaultReads_creates (reads : BitVec 48) (s : State) : Creates s (takeFaultReads reads s) := by
  have sensed : ∀ w s, Creates s (senseFault w s) := fun w s => by
    unfold senseFault
    split
    · exact .refl s
    · exact .ite (fun _ => faultOn_creates ..) fun _ => .refl s
  have all : ∀ s, Creates s (senseAll reads s) :=
    .forFin fun w s => .ite (fun _ => sensed w s) fun _ => .refl s
  exact .ite (fun _ => (modLamp_only ..).creates.trans (all _)) fun _ => .refl s

theorem takeTallySet_creates (src : Byte) (m : TallySetMsg) (s : State) : Creates s (takeTallySet src m s) := by
  unfold takeTallySet
  split
  · exact .ite (fun _ => (modTally_only ..).creates.trans (report_creates ..)) fun _ => (modTally_only ..).creates
  · exact (modTally_only ..).creates

theorem reportAllClipped_creates (x : Vector MixPeriod 24) (old : MixEngine) (s : State) :
    Creates s (reportAllClipped x old s) :=
  .forFin (fun _ s => .ite (fun _ => report_creates ..) fun _ => .refl s) s

/-! ### Keys and panel lines -/

theorem startTalk_creates (m : MapId) (k : KeyId) (t : TalkTarget) (s : State) : Creates s (startTalk m k t s) :=
  .ite (fun _ => createOrigin_creates ..) fun _ => (createOrigin_creates ..).trans (modKey_only ..).creates

theorem startTallyTalk_creates (m : MapId) (k : KeyId) (p : PointId) (s : State) :
    Creates s (startTallyTalk m k p s) := by
  unfold startTallyTalk
  dsimp only
  split
  · exact (modKey_only ..).creates
  · exact .ite (fun _ => createOrigin_creates ..) fun _ => (createOrigin_creates ..).trans (modKey_only ..).creates

theorem endTallyTalk_creates (m : MapId) (k : KeyId) (p : PointId) (s : State) :
    Creates s (endTallyTalk m k p s) := by
  unfold endTallyTalk
  dsimp only
  refine .trans ?_ (modKey_only ..).creates
  split
  · exact .refl s
  · exact endOrigin_creates ..

theorem answerCall_creates (m : MapId) (p : PointId) (s : State) : Creates s (answerCall m p s) := by
  unfold answerCall
  split
  · exact .refl s
  · exact .ite (fun _ => (sendCell_creates ..).trans (cancelCall_only ..).creates) fun _ => .refl s

theorem startRoute_creates (m : MapId) (k : KeyId) (n : Byte) (d : DestId) (x : Source) (s : State) :
    Creates s (startRoute m k n d x s) :=
  .ite (fun _ => (routerTake_creates ..).trans (modKey_only ..).creates)
    fun _ => (Creates.cell ..).trans (modKey_only ..).creates

theorem activateFn_creates (m : MapId) (k : KeyId) (s : State) : Creates s (activateFn m k s) := by
  unfold activateFn
  split
  · exact .refl s
  · exact (answerCall_creates ..).trans (startTalk_creates ..)
  · exact startTalk_creates ..
  · exact (modKey_only ..).creates.trans (.foldl (fun _ _ => startTallyTalk_creates ..) _ _)
  · exact .ite (fun _ => ((toggleSub_only ..).creates.trans (modKey_only ..).creates).trans (modKey_only ..).creates)
      fun _ => (toggleSub_only ..).creates.trans (modKey_only ..).creates
  · split
    · exact (modKey_only ..).creates
    · exact (sendCell_creates ..).trans (takeCallFor_only ..).creates
  · exact startRoute_creates ..

theorem deactivateFn_creates (m : MapId) (k : KeyId) (s : State) : Creates s (deactivateFn m k s) := by
  unfold deactivateFn
  split
  · exact .refl s
  · exact .refl s
  · exact .refl s
  · exact (endKeyOrigin_creates ..).trans (modKey_only ..).creates
  · exact (endKeyOrigin_creates ..).trans (modKey_only ..).creates
  · exact (endKeyOrigins_creates ..).trans (modKey_only ..).creates
  · refine .ite (fun _ => .refl s) fun _ => ?_
    exact .ite (fun _ => ((toggleSub_only ..).creates.trans (modKey_only ..).creates).trans (modKey_only ..).creates)
      fun _ => (toggleSub_only ..).creates.trans (modKey_only ..).creates

theorem setActive_creates (m : MapId) (k : KeyId) (on : Bool) (s : State) : Creates s (setActive m k on s) :=
  .ite (fun _ => .refl s) fun _ => .ite (fun _ => (modKey_only ..).creates.trans (activateFn_creates ..))
    fun _ => (modKey_only ..).creates.trans (deactivateFn_creates ..)

theorem autoPress_creates (m : MapId) (k : KeyId) (s : State) : Creates s (autoPress m k s) := by
  unfold autoPress
  split
  · exact (modKey_only ..).creates.trans (setActive_creates ..)
  · exact (modKey_only ..).creates.trans (setActive_creates ..)
  · exact .refl s

theorem autoRelease_creates (m : MapId) (k : KeyId) (s : State) : Creates s (autoRelease m k s) := by
  unfold autoRelease
  split
  · exact (modKey_only ..).creates
  · exact (modKey_only ..).creates.trans (setActive_creates ..)
  · exact (modKey_only ..).creates
  · exact .refl s

theorem takeEdge_creates (m : MapId) (k : KeyId) (press : Bool) (s : State) : Creates s (takeEdge m k press s) := by
  unfold takeEdge
  split
  · exact setActive_creates ..
  · exact .ite (fun _ => setActive_creates ..) fun _ => .refl s
  · exact .ite (fun _ => autoPress_creates ..) fun _ => autoRelease_creates ..

theorem scanKey_creates (m : MapId) (p : Nat) (k : KeyId) (a : State × List (KeyId × Bool)) :
    Creates a.1 (scanKey m p k a).1 := by
  unfold scanKey
  dsimp only
  split
  · exact (modKey_only ..).creates
  · split
    · exact (modKey_only ..).creates
    · split
      · exact (modKey_only ..).creates.trans (modKey_only ..).creates
      · exact (modKey_only ..).creates.trans (takeEdge_creates ..)

theorem scanKeys_creates (i : LineId) (m : MapId) (sc : Scan) (s : State) : Creates s (scanKeys i m sc s) := by
  have scanned : Creates s (forFin 32 (scanKey m sc.pressed) (s, [])).1 :=
    forFin_induct (α := State × List (KeyId × Bool)) (fun a => Creates s a.1) (scanKey m sc.pressed)
      (fun _ _ h => h.trans (scanKey_creates ..)) (s, []) (.refl s)
  exact scanned.trans (.foldl (fun s _ => .ite (fun _ => report_creates ..) fun _ => .refl s) _ _)

theorem releaseKeys_creates (m : MapId) (s : State) : Creates s (releaseKeys m s) :=
  .forFin (fun _ _ => setActive_creates ..) s

theorem loseLine_creates (i : LineId) (id : Byte) (s : State) : Creates s (loseLine i id s) := by
  have told : Creates s (reportPanel i s.panel.lines[i].state id (modPanelLine i toAbsent s)) :=
    (modPanelLine_only ..).creates.trans (report_creates ..)
  unfold loseLine
  dsimp only
  split
  · exact ((told.trans (endMapOrigins_creates ..)).trans (releaseKeys_creates ..)).trans (clearKeys_only ..).creates
  · exact told

theorem enterLine_creates (i : LineId) (sc : Scan) (s : State) : Creates s (enterLine i sc s) := by
  have entered : ∀ (f : PanelLine → PanelLine) (m : Option MapId), Creates s (match m with
      | some m => bindKeys m sc.pressed (modPanelLine i f s)
      | none => modPanelLine i f s) := fun f m => by
    cases m with
    | none => exact (modPanelLine_only ..).creates
    | some m => exact (modPanelLine_only ..).creates.trans (bindKeys_only ..).creates
  exact .ite (fun _ => entered ..) fun _ => (entered ..).trans (report_creates ..)

theorem takeScan_creates (i : LineId) (bs : List Byte) (s : State) : Creates s (takeScan i bs s) := by
  have answered : ∀ k s, Creates s (answerLamps i (handKnob i k s)) := fun k s =>
    (handKnob_only ..).creates.trans (answerLamps_only ..).creates
  unfold takeScan
  split
  · exact (modPanelLine_only ..).creates
  · refine .ite (fun _ => (modPanelLine_only ..).creates.trans (answered ..)) fun _ => .trans ?_ (answered ..)
    split
    · exact (modPanelLine_only ..).creates.trans (scanKeys_creates ..)
    · exact .ite (fun _ => (loseLine_creates ..).trans (enterLine_creates ..)) fun _ => enterLine_creates ..

theorem timeoutLine_creates (i : LineId) (s : State) : Creates s (timeoutLine i s) :=
  .ite (fun _ => loseLine_creates ..) fun _ => .refl s

theorem announceBus_creates (s : State) (b : BusId) : Creates s (announceBus s b) := by
  have resolved : ∀ m k cap s, Creates s (reresolveKey m k b cap s) := fun m k cap s =>
    ((Creates.foldl (fun _ _ => endTallyTalk_creates ..) _ s).trans (modKey_only ..).creates).trans
      (.foldl (fun _ _ => startTallyTalk_creates ..) _ _)
  have told : ∀ m k s, Creates s (announceToKey b m k s) := fun m k s => by
    unfold announceToKey
    split
    · exact .ite (fun _ => resolved ..) fun _ => .refl s
    · exact .refl s
  exact .forFin (fun m s => .forFin (fun k s => told m k s) s) s

theorem unbindMap_creates (m : MapId) (s : State) : Creates s (unbindMap m s) := by
  unfold unbindMap
  split
  · exact .refl s
  · exact loseLine_creates ..

theorem unbindForMap_creates (m : MapId) (old new : KeyMap) (s : State) : Creates s (unbindForMap m old new s) := by
  have own : Creates s (if old.panelId != new.panelId || old.listen != new.listen then unbindMap m s else s) :=
    .ite (fun _ => unbindMap_creates ..) fun _ => .refl s
  exact .ite (fun _ => own.trans (.forFin (fun _ s => .ite (fun _ => unbindMap_creates ..) fun _ => .refl s) _))
    fun _ => own

theorem writeKeyMap_creates (i : Nat) (e : List Byte) (s : State) : Creates s (writeKeyMap i e s).1 := by
  unfold writeKeyMap
  split
  · exact .refl s
  · split
    · exact .refl s
    · dsimp only
      exact (unbindForMap_creates ..).trans (modPanel_only ..).creates

theorem writeKey_creates (i : Nat) (e : List Byte) (s : State) : Creates s (writeKey i e s).1 := by
  unfold writeKey
  split
  · exact .refl s
  · split
    · exact .refl s
    · dsimp only
      refine .trans (.ite (fun _ => ?_) fun _ => .refl s) (modPanel_only ..).creates
      exact (setActive_creates ..).trans (modKey_only ..).creates

end Sys2Proof.Machine
end

section
/-! SUPPORT. What a creation, a returned buffer, pruning and a grant do to the slot schedule and to the outstanding sets
(R47, R49 to R54). -/

namespace Sys2Proof.Machine

open Sys2Proof

/-! ### The schedule (R53, R54) -/

/-- The length of the schedule and its two indexes stand. -/
def SameSchedule (c c' : CellEngine) : Prop :=
  c'.schedLen = c.schedLen ∧ c'.cwIndex = c.cwIndex ∧ c'.ccwIndex = c.ccwIndex

theorem SameSchedule.sound {c c' : CellEngine} (h : SameSchedule c c') (hs : SchedSound c) : SchedSound c' := by
  obtain ⟨len, cw, ccw⟩ := h
  rwa [SchedSound, len, cw, ccw]

/-! ### A creation (R47) -/

/-- From the first state to the second one cell, at most, joined a queue, with the directions that the node inserts into as
its outstanding set; the schedule stands. -/
structure Appends (s t : State) : Prop where
  trunk : t.trunk = s.trunk
  schedule : SameSchedule s.cells t.cells
  queues : t.cells.queues = s.cells.queues ∨
    (inserts s.trunk .cw = true ∨ inserts s.trunk .ccw = true) ∧ ∃ (k : CellClass) (cell : Cell),
      t.cells.queues = s.cells.queues.mod k
        (· ++ [{ cell := cell, cw := inserts s.trunk .cw, ccw := inserts s.trunk .ccw, sent := false }])

theorem createRaw_appends (kind : CellKind) (dest : Byte) (tag : Option Byte) (payload : List Byte) (s : State) :
    Appends s (createRaw kind dest tag payload s).1 := by
  refine ⟨(createRaw_only ..).keep .trunk (by decide), ?_, ?_⟩ <;> unfold createRaw <;> split
  · exact ⟨rfl, rfl, rfl⟩
  · split
    · exact ⟨rfl, rfl, rfl⟩
    · split
      · exact ⟨rfl, rfl, rfl⟩
      · cases tag <;> dsimp only <;> split <;> exact ⟨rfl, rfl, rfl⟩
  · exact .inl rfl
  · next k _ =>
    split
    · exact .inl rfl
    · split
      · exact .inl rfl
      · dsimp only
        split
        · next inserted =>
          refine .inr ⟨Bool.or_eq_true_iff.1 inserted, k, makeCell kind dest (tag.getD s.cells.tag) payload s, ?_⟩
          cases tag <;> rfl
        · cases tag <;> exact .inl rfl

/-! ### Outstanding sets (R47, R50, R52) -/

/-- Every queued cell has a direction outstanding, and only directions that this Trunk Interface inserts into. -/
def Directed (t : Trunk) (c : CellEngine) : Prop :=
  ∀ k : CellClass, ∀ q ∈ c.queues.get k,
    (q.cw = true ∨ q.ccw = true) ∧ (q.cw = true → inserts t .cw = true) ∧ (q.ccw = true → inserts t .ccw = true)

theorem directed_iff (s : State) : Directed s.trunk s.cells ↔ QueuesLive s.cells ∧ DirsWithin s :=
  ⟨fun h => ⟨fun k q hq => (h k q hq).1, fun k q hq => (h k q hq).2⟩, fun h k q hq => ⟨h.1 k q hq, h.2 k q hq⟩⟩

/-- A Trunk Interface that inserts into more directions, and queues that stand. -/
theorem Directed.mono {t u : Trunk} {c c' : CellEngine} (h : Directed t c)
    (hi : ∀ d, inserts t d = true → inserts u d = true) (hq : c'.queues = c.queues) : Directed u c' := by
  intro k q mem
  obtain ⟨live, cw, ccw⟩ := h k q (hq ▸ mem)
  exact ⟨live, fun x => hi _ (cw x), fun x => hi _ (ccw x)⟩

/-- One queue replaced by cells that are directed. -/
theorem Directed.mod {t : Trunk} {c c' : CellEngine} {k : CellClass} {f : List QCell → List QCell} (h : Directed t c)
    (hq : c'.queues = c.queues.mod k f)
    (hf : ∀ q ∈ f (c.queues.get k), q ∈ c.queues.get k ∨ (q.cw = true ∨ q.ccw = true) ∧
      (q.cw = true → inserts t .cw = true) ∧ (q.ccw = true → inserts t .ccw = true)) : Directed t c' := by
  intro j q mem
  rw [hq, ByClass.get_mod] at mem
  split at mem
  · next same =>
    subst same
    exact (hf q mem).elim (h k q) id
  · exact h j q mem

theorem Appends.directed {s t : State} (h : Appends s t) (hd : Directed s.trunk s.cells) : Directed t.trunk t.cells := by
  rw [h.trunk]
  obtain same | ⟨inserted, k, cell, more⟩ := h.queues
  · exact hd.mono (fun _ => id) same
  · refine hd.mod more fun q mem => ?_
    obtain old | new := List.mem_append.1 mem
    · exact .inl old
    · obtain rfl := List.mem_singleton.1 new
      exact .inr ⟨inserted, id, id⟩

/-! ### What a creation keeps -/

theorem bufferReturned_appends (s : State) : Appends s (bufferReturned s) := by
  cases hx : s.cells.exhausted with
  | false =>
    rw [bufferReturned_none hx]
    exact ⟨rfl, ⟨rfl, rfl, rfl⟩, .inl rfl⟩
  | true =>
    rw [bufferReturned_some hx]
    split
    · obtain ⟨trunk, schedule, queues⟩ := createRaw_appends .event (b8 s.mgmt.params.ctrl) none
        (15 :: lossBytes s.cells) (reportTaken s)
      exact ⟨trunk, schedule, queues⟩
    · exact ⟨rfl, ⟨rfl, rfl, rfl⟩, .inl rfl⟩

theorem bufferReturned_directed {s : State} (h : Directed s.trunk s.cells) :
    Directed (bufferReturned s).trunk (bufferReturned s).cells := (bufferReturned_appends s).directed h

theorem createCell_directed (kind : CellKind) (dest : Byte) (tag : Option Byte) (payload : List Byte) {s : State}
    (h : Directed s.trunk s.cells) :
    Directed (createCell kind dest tag payload s).1.trunk (createCell kind dest tag payload s).1.cells := by
  have raw := (createRaw_appends kind dest tag payload s).directed h
  unfold createCell
  dsimp only
  split
  · exact bufferReturned_directed raw
  · exact raw

theorem createCell_schedule (kind : CellKind) (dest : Byte) (tag : Option Byte) (payload : List Byte) {s : State}
    (h : SchedSound s.cells) : SchedSound (createCell kind dest tag payload s).1.cells := by
  have raw := (createRaw_appends kind dest tag payload s).schedule.sound h
  unfold createCell
  dsimp only
  split
  · exact (bufferReturned_appends _).schedule.sound raw
  · exact raw

/-- Creations keep what holds of the Cell Engine alone and of the roles, where one creation does. -/
theorem Creates.keeps {s t : State} (h : Creates s t) {P : Trunk → CellEngine → Prop}
    (cell : ∀ kind dest tag payload (s : State), P s.trunk s.cells →
      P (createCell kind dest tag payload s).1.trunk (createCell kind dest tag payload s).1.cells)
    (hs : P s.trunk s.cells) : P t.trunk t.cells := by
  induction h with
  | other trunk cells _ => rwa [trunk, cells]
  | flag k s => exact hs
  | cell kind dest tag payload s => exact cell kind dest tag payload s hs
  | trans _ _ ih ih' => exact ih' (ih hs)

/-! ### A grant (R51, R54) -/

/-- The entry that follows in a schedule of `n` entries. -/
theorem nextEntry {n i : Nat} (h : i < n) : (if i + 1 ≥ n then 0 else i + 1) = (i + 1) % n := by
  split
  · rw [show i + 1 = n by omega, Nat.mod_self]
  · exact (Nat.mod_eq_of_lt (by omega)).symm

/-- The winner of a free slot has its class give up its oldest cell. -/
theorem findWinner_taken {c : CellEngine} {d : Dir} {i fuel j : Nat} {cell : Cell} {q : List QCell}
    (h : findWinner c d i fuel = some (j, cell, q)) : takeOldest d (c.queues.get (schedAt c j)) = some (cell, q) := by
  induction fuel generalizing i with
  | zero => cases h
  | succ fuel ih =>
    unfold findWinner at h
    split at h
    · next taken =>
      cases h
      exact taken
    · exact ih h

/-- The winner of a free slot is an entry in use. -/
theorem findWinner_inUse {c : CellEngine} {d : Dir} {i fuel j : Nat} {cell : Cell} {q : List QCell} (hi : i < c.schedLen)
    (h : findWinner c d i fuel = some (j, cell, q)) : j < c.schedLen := by
  induction fuel generalizing i with
  | zero => cases h
  | succ fuel ih =>
    unfold findWinner at h
    split at h
    · cases h
      exact hi
    · rw [nextEntry hi] at h
      exact ih (Nat.mod_lt _ (by omega)) h

theorem takeOldest_length {d : Dir} {q r : List QCell} {c : Cell} (h : takeOldest d q = some (c, r)) :
    r.length ≤ q.length := by
  have spec := takeOldest_spec d q
  rw [h] at spec
  obtain ⟨pre, x, post, rfl, -, -, -, rfl⟩ := spec
  split <;> simp

/-- R51: what is left of a queue whose oldest cell is sent: cells of the queue, or that cell with its other direction. -/
theorem mem_takeOldest {d : Dir} {q r : List QCell} {c : Cell} (h : takeOldest d q = some (c, r)) {y : QCell}
    (hy : y ∈ r) : y ∈ q ∨ ∃ x ∈ q, y = x.sentIn d ∧ y.done = false := by
  have spec := takeOldest_spec d q
  rw [h] at spec
  obtain ⟨pre, x, post, rfl, -, -, -, rfl⟩ := spec
  split at hy
  · exact .inl (by simp only [List.mem_append, List.mem_cons] at hy ⊢; tauto)
  · next left =>
    simp only [List.mem_append, List.mem_cons] at hy
    obtain old | rfl | old := hy
    · exact .inl (by simp [old])
    · exact .inr ⟨x, by simp, rfl, by simpa using left⟩
    · exact .inl (by simp [old])

/-- R51, R54: the Cell Engine after a grant to entry `i`, before its buffer returns. -/
def granted (d : Dir) (i : Nat) (q : List QCell) (c : CellEngine) : CellEngine :=
  setSchedIndex d (if i + 1 ≥ c.schedLen then 0 else i + 1)
    { c with queues := c.queues.mod (schedAt c i) (fun _ => q)
             free := c.free + ((c.queues.get (schedAt c i)).length - q.length) }

theorem setSchedIndex_queues (d : Dir) (i : Nat) (c : CellEngine) : (setSchedIndex d i c).queues = c.queues := by
  cases d <;> rfl

theorem setSchedIndex_free (d : Dir) (i : Nat) (c : CellEngine) : (setSchedIndex d i c).free = c.free := by
  cases d <;> rfl

theorem granted_queues (d : Dir) (i : Nat) (q : List QCell) (c : CellEngine) :
    (granted d i q c).queues = c.queues.mod (schedAt c i) fun _ => q := setSchedIndex_queues ..

/-- What a grant makes of the node: nothing, or the winner's cell sent, whose buffer may return. -/
theorem grant_cases (d : Dir) (s : State) : (grant d s).1 = s ∨ ∃ (i : Nat) (cell : Cell) (q : List QCell),
    findWinner s.cells d (schedIndex s.cells d) s.cells.schedLen = some (i, cell, q) ∧
      ((grant d s).1 = s.modCells (granted d i q) ∨ (grant d s).1 = bufferReturned (s.modCells (granted d i q))) := by
  unfold grant
  split
  · exact .inl rfl
  · next i cell q won =>
    refine .inr ⟨i, cell, q, won, ?_⟩
    dsimp only
    split
    · exact .inl rfl
    · exact .inr rfl

theorem granted_schedule {d : Dir} {i : Nat} {c : CellEngine} (hs : SchedSound c) (hi : i < c.schedLen) (q : List QCell) :
    SchedSound (granted d i q c) := by
  obtain ⟨low, high, cw, ccw⟩ := hs
  have next : (i + 1) % c.schedLen < c.schedLen := Nat.mod_lt _ (by omega)
  unfold granted
  rw [nextEntry hi]
  cases d with
  | cw => exact ⟨low, high, next, ccw⟩
  | ccw => exact ⟨low, high, cw, next⟩

theorem granted_pool {d : Dir} {i : Nat} {c : CellEngine} {cell : Cell} {q : List QCell}
    (h : takeOldest d (c.queues.get (schedAt c i)) = some (cell, q)) : poolSize (granted d i q c) = poolSize c := by
  have less := takeOldest_length h
  have count := queuedCells_mod c.queues (schedAt c i) fun _ => q
  unfold poolSize queuedCells granted
  rw [setSchedIndex_queues, setSchedIndex_free]
  dsimp only
  omega

theorem granted_directed {d : Dir} {i : Nat} {t : Trunk} {c : CellEngine} {cell : Cell} {q : List QCell}
    (h : takeOldest d (c.queues.get (schedAt c i)) = some (cell, q)) (hd : Directed t c) : Directed t (granted d i q c) := by
  refine hd.mod (granted_queues ..) fun y hy => ?_
  obtain old | ⟨x, hx, rfl, live⟩ := mem_takeOldest h hy
  · exact .inl old
  · obtain ⟨-, cw, ccw⟩ := hd _ x hx
    cases d
    all_goals
      simp only [QCell.sentIn, QCell.done, Bool.not_false, Bool.true_and, Bool.and_true, Bool.not_eq_false'] at live ⊢
      exact .inr (by simp [live, cw, ccw])

theorem schedIndex_lt {c : CellEngine} (h : SchedSound c) (d : Dir) : schedIndex c d < c.schedLen := by
  obtain ⟨-, -, cw, ccw⟩ := h
  cases d with
  | cw => exact cw
  | ccw => exact ccw

theorem grant_pool (d : Dir) (s : State) : poolSize (grant d s).1.cells = poolSize s.cells := by
  obtain same | ⟨i, cell, q, won, sent | sent⟩ := grant_cases d s
  · rw [same]
  · rw [sent]
    exact granted_pool (findWinner_taken won)
  · rw [sent, bufferReturned_pool]
    exact granted_pool (findWinner_taken won)

theorem grant_schedule (d : Dir) {s : State} (h : SchedSound s.cells) : SchedSound (grant d s).1.cells := by
  obtain same | ⟨i, cell, q, won, sent | sent⟩ := grant_cases d s
  · rwa [same]
  · rw [sent]
    exact granted_schedule h (findWinner_inUse (schedIndex_lt h d) won) q
  · rw [sent]
    exact (bufferReturned_appends _).schedule.sound
      (granted_schedule h (findWinner_inUse (schedIndex_lt h d) won) q)

theorem grant_directed (d : Dir) {s : State} (h : Directed s.trunk s.cells) :
    Directed (grant d s).1.trunk (grant d s).1.cells := by
  obtain same | ⟨i, cell, q, won, sent | sent⟩ := grant_cases d s
  · rwa [same]
  · rw [sent]
    exact granted_directed (findWinner_taken won) h
  · rw [sent]
    exact bufferReturned_directed (s := s.modCells (granted d i q)) (granted_directed (findWinner_taken won) h)

/-! ### Pruning and a change of roles (R52) -/

/-- R52: once the directions that are no longer inserted into are taken, the sets lie within those that are. -/
theorem prunedCells_directed {t u : Trunk} {c : CellEngine} (h : Directed t c) :
    Directed u (prunedCells (inserts t .cw && !inserts u .cw) (inserts t .ccw && !inserts u .ccw) c) := by
  intro k q mem
  rw [(prunedCells_get ..).1, ← pruneKeep_eq] at mem
  obtain ⟨live, cw, ccw, x, hx, -, -, fromCw, fromCcw⟩ := mem_pruneKeep mem
  obtain ⟨-, inCw, inCcw⟩ := h k x hx
  refine ⟨live, fun on => ?_, fun on => ?_⟩
  · by_contra off
    exact absurd (cw (by simpa [inCw (fromCw on)] using off)) (by simp [on])
  · by_contra off
    exact absurd (ccw (by simpa [inCcw (fromCcw on)] using off)) (by simp [on])

theorem prune_schedule (cw ccw : Bool) {s : State} (h : SchedSound s.cells) : SchedSound (prune cw ccw s).cells := by
  rw [prune_eq]
  split
  · exact h
  · exact (bufferReturned_appends _).schedule.sound h

theorem rolesChanged_schedule (old : Trunk) {s : State} (h : SchedSound s.cells) :
    SchedSound (rolesChanged old s).cells := by
  rw [rolesChanged_eq]
  split
  · exact h
  · exact prune_schedule _ _ h

/-- R12, R52: after a change of roles the outstanding sets lie within the new insertion directions. -/
theorem rolesChanged_directed {old : Trunk} {s : State} (h : Directed old s.cells) :
    Directed (rolesChanged old s).trunk (rolesChanged old s).cells := by
  have roles := (rolesChanged_sameRoles old s).inserts
  have dropped := fun d => (buffersDropped_sameRoles old s.trunk).inserts d
  have within : ∀ {v : State}, Directed (buffersDropped old s.trunk) v.cells → v.cells = (rolesChanged old s).cells →
      Directed (rolesChanged old s).trunk (rolesChanged old s).cells := fun hv same =>
    hv.mono (fun d on => by rwa [roles, ← dropped]) (by rw [same])
  rw [rolesChanged_eq] at within ⊢
  split
  · next stays =>
    obtain ⟨cw, ccw⟩ := stays
    refine h.mono (fun d on => ?_) rfl
    rw [State.modTrunk_trunk, dropped]
    cases d with
    | cw => simpa [on] using cw
    | ccw => simpa [on] using ccw
  · have pruned := prunedCells_directed (u := buffersDropped old s.trunk) h
    rw [dropped, dropped] at pruned
    rw [prune_eq]
    split
    · exact pruned
    · exact bufferReturned_directed
        (s := (s.modTrunk (buffersDropped old)).modCells (prunedCells _ _)) pruned

end Sys2Proof.Machine
end

section
/-! SUPPORT. What a step can do to the Cell Engine, said once of every command; and that it keeps the pool whole, the schedule
in range and the outstanding sets within the insertion directions (O6, O7). -/

namespace Sys2Proof.Machine

open Sys2Proof

/-! ### What a step can do to the Cell Engine -/

/-- From the first state to the second the Cell Engine was changed by these alone: cells created, a slot granted, roles
recomputed, a SCHED entry accepted, a reset. -/
inductive CellSteps : State → State → Prop where
  | other {s t : State} (roles : ∀ d, inserts t.trunk d = inserts s.trunk d) (queues : t.cells.queues = s.cells.queues)
      (free : t.cells.free = s.cells.free) (schedule : SameSchedule s.cells t.cells) : CellSteps s t
  | creates {s t : State} : Creates s t → CellSteps s t
  | roles (s u : State) (cells : u.cells = s.cells) : CellSteps s (rolesChanged s.trunk u)
  | grant (d : Dir) (s : State) : CellSteps s (grant d s).1
  | sched {s t : State} (trunk : t.trunk = s.trunk) (queues : t.cells.queues = s.cells.queues)
      (free : t.cells.free = s.cells.free) (length : SchedSound s.cells → 1 ≤ t.cells.schedLen ∧ t.cells.schedLen ≤ 32)
      (cw : t.cells.cwIndex = 0) (ccw : t.cells.ccwIndex = 0) : CellSteps s t
  | reset {s t : State} (queues : t.cells.queues = ByClass.all []) (free : t.cells.free = 128)
      (schedule : SchedSound t.cells) : CellSteps s t
  | trans {s t u : State} : CellSteps s t → CellSteps t u → CellSteps s u

/-- R46: the pool stays whole. -/
theorem CellSteps.pool {s t : State} (h : CellSteps s t) (hs : PoolWhole s.cells) : PoolWhole t.cells := by
  induction h with
  | other _ queues free _ => rwa [PoolWhole, queuedCells, queues, free]
  | creates h => exact h.keeps (P := fun _ => PoolWhole) (fun _ _ _ _ _ h => (createCell_pool ..).trans h) hs
  | roles s u cells => exact (rolesChanged_pool ..).trans (cells ▸ hs)
  | grant d s => exact (grant_pool d s).trans hs
  | sched _ queues free _ _ _ => rwa [PoolWhole, queuedCells, queues, free]
  | reset queues free _ =>
    rw [PoolWhole, queuedCells, queues, free]
    rfl
  | trans _ _ ih ih' => exact ih' (ih hs)

/-- R53, R54: the schedule stays in range. -/
theorem CellSteps.schedule {s t : State} (h : CellSteps s t) (hs : SchedSound s.cells) : SchedSound t.cells := by
  induction h with
  | other _ _ _ schedule => exact schedule.sound hs
  | creates h => exact h.keeps (P := fun _ => SchedSound) (fun _ _ _ _ _ h => createCell_schedule _ _ _ _ h) hs
  | roles s u cells => exact rolesChanged_schedule _ (cells ▸ hs)
  | grant d s => exact grant_schedule d hs
  | sched _ _ _ length cw ccw =>
    obtain ⟨low, high⟩ := length hs
    exact ⟨low, high, by omega, by omega⟩
  | reset _ _ schedule => exact schedule
  | trans _ _ ih ih' => exact ih' (ih hs)

/-- R50, R52: the outstanding sets stay within the insertion directions, and none is empty. -/
theorem CellSteps.directed {s t : State} (h : CellSteps s t) (hs : Directed s.trunk s.cells) :
    Directed t.trunk t.cells := by
  induction h with
  | other roles queues _ _ => exact hs.mono (fun d on => by rwa [roles]) queues
  | creates h => exact h.keeps (P := Directed) (fun _ _ _ _ _ h => createCell_directed _ _ _ _ h) hs
  | roles s u cells => exact rolesChanged_directed (cells ▸ hs)
  | grant d s => exact grant_directed d hs
  | sched trunk queues _ _ _ _ => exact hs.mono (fun d on => by rwa [trunk]) queues
  | reset queues _ _ =>
    intro k q mem
    rw [queues] at mem
    cases k <;> cases mem
  | trans _ _ ih ih' => exact ih' (ih hs)

theorem CellSteps.refl (s : State) : CellSteps s s := .creates (.refl s)

theorem CellSteps.ite {s t u : State} {p : Prop} [Decidable p] (h : p → CellSteps s t) (g : ¬p → CellSteps s u) :
    CellSteps s (if p then t else u) := by
  split
  · exact h ‹_›
  · exact g ‹_›

/-- The Trunk Interface keeps its roles, and the Cell Engine stands. -/
theorem SameRoles.cellSteps {s t : State} (h : SameRoles s.trunk t.trunk) (cells : t.cells = s.cells) : CellSteps s t :=
  .other h.inserts (by rw [cells]) (by rw [cells]) (by rw [cells]; exact ⟨rfl, rfl, rfl⟩)

/-- A step of other blocks does nothing to the Cell Engine. -/
theorem Only.cellSteps {bs : List Block} {s t : State} (h : Only bs s t)
    (hb : Block.trunk ∉ bs ∧ Block.cells ∉ bs := by decide) : CellSteps s t :=
  SameRoles.cellSteps (by rw [h.keep .trunk hb.1]; exact .refl _) (h.keep .cells hb.2)

theorem modTrunk_cellSteps (f : Trunk → Trunk) (s : State) (h : SameRoles s.trunk (f s.trunk)) :
    CellSteps s (s.modTrunk f) := h.cellSteps rfl

/-- No role changes, and of the Cell Engine at most its counters. -/
theorem count_cellSteps {s t : State} (trunk : t.trunk = s.trunk) (queues : t.cells.queues = s.cells.queues)
    (free : t.cells.free = s.cells.free) (schedule : SameSchedule s.cells t.cells) : CellSteps s t :=
  .other (fun d => by rw [trunk]) queues free schedule

/-- A port changes and its input stays LOCKED, or stays not LOCKED. -/
theorem modPort_cellSteps (p : Port) (f : PortState → PortState) (s : State)
    (hf : ∀ x, (f x).lock = .locked ↔ x.lock = .locked) : CellSteps s (s.modTrunk (modPort p f)) :=
  (modPort_sameRoles (hf _)).cellSteps rfl

/-! ### Roles (R7, R10, R11) -/

/-- R7, R12: an input moves. -/
theorem portCounted_cellSteps (p : Port) (f : PortState → PortState) (s : State) : CellSteps s (portCounted p f s) := by
  by_cases h : (f (portOf s.trunk p)).lock = .locked ↔ (portOf s.trunk p).lock = .locked
  · rw [portCounted_stays p f s h]
    exact (modPort_sameRoles h).cellSteps rfl
  · rw [portCounted_moves p f s h]
    exact (CellSteps.roles s (s.modTrunk (modPort p f)) rfl).trans (.creates (report_creates ..))

theorem judgeConflict_cellSteps (f : WireFrame) (s : State) : CellSteps s (judgeConflict f s) := by
  have yielded : CellSteps s (yieldHead s) := .roles _ _ rfl
  have noted : CellSteps s (s.modTrunk fun t => { t with conflictReported := true }) :=
    modTrunk_cellSteps _ s ⟨rfl, rfl, rfl, rfl, fun p => by cases p <;> rfl⟩
  refine .ite (fun _ => .ite (fun _ => ?_) fun _ => .ite (fun _ => .refl s) fun _ => ?_) fun _ => .refl s
  · exact yielded.trans (.creates (report_creates ..))
  · exact noted.trans (.creates (report_creates ..))

theorem judgeMode_cellSteps (f : WireFrame) (s : State) : CellSteps s (judgeMode f s) :=
  .ite (fun _ => (CellSteps.roles s (s.modTrunk fun t => { t with mode := modeOf f }) rfl).trans
    (.creates (report_creates ..))) fun _ => .refl s

/-! ### Switch points -/

theorem abandonIfDue_cellSteps (s : State) : CellSteps s (abandonIfDue s) := by
  unfold abandonIfDue
  split
  · exact .ite (fun _ => (modMgmt_only ..).cellSteps.trans (.creates (report_creates ..))) fun _ => .refl s
  · exact .refl s

theorem deliver_cellSteps (e : Epoch) (s : State) : CellSteps s (deliver e s) := by
  have trunk : CellSteps s (trunkSwitchPoint s) :=
    modTrunk_cellSteps _ s ⟨rfl, rfl, rfl, rfl, fun p => by cases p <;> rfl⟩
  have tally : ∀ s, CellSteps s (tallyDelivery e s) := fun s =>
    (tallySwitchPoint_only ..).cellSteps.trans (.creates (.foldl announceBus_creates _ _))
  have mgmt : ∀ s, CellSteps s (mgmtSwitchPoint s) := fun s =>
    (modMgmt_only ..).cellSteps.trans (abandonIfDue_cellSteps _)
  exact (((((trunk.trans (routerSwitchPoint_only ..).cellSteps).trans (.creates (talkSwitchPoint_creates _))).trans
    (keySwitchPoint_only _).cellSteps).trans (tally _)).trans (lampSwitchPoint_only ..).cellSteps).trans (mgmt _)

theorem setMarks_cellSteps (e : Epoch) (relay : Bool) (s : State) : CellSteps s (setMarks e relay s) :=
  modTrunk_cellSteps _ s ⟨rfl, rfl, rfl, rfl, fun p => by cases p <;> rfl⟩

theorem makeHead_cellSteps (o : SpOrigin) (s : State) : CellSteps s (makeHead o s) :=
  (((modSp_only ..).cellSteps.trans (modSp_only ..).cellSteps).trans (setMarks_cellSteps ..)).trans (deliver_cellSteps ..)

theorem actOnMarker_cellSteps (e : Epoch) (s : State) : CellSteps s (actOnMarker e s) :=
  ((modSp_only ..).cellSteps.trans (setMarks_cellSteps ..)).trans (deliver_cellSteps ..)

theorem takeMarker_cellSteps (e : Epoch) (s : State) : CellSteps s (takeMarker e s) := by
  have restarted : CellSteps s (restartFreeRun s) := .ite (fun _ => (modSp_only ..).cellSteps) fun _ => .refl s
  exact .ite (fun _ => .ite (fun _ => actOnMarker_cellSteps ..) fun _ => .refl s) fun _ =>
    .ite (fun _ => restarted) fun _ => restarted.trans (actOnMarker_cellSteps ..)

theorem localPoint_cellSteps (s : State) : CellSteps s (localPoint s) := by
  refine .ite (fun _ => ?_) fun _ => .refl s
  split
  · exact .refl s
  · exact ((modSp_only ..).cellSteps.trans (setMarks_cellSteps ..)).trans (deliver_cellSteps ..)

theorem scheduledPoint_cellSteps (s : State) : CellSteps s (scheduledPoint s) := by
  refine .ite (fun _ => ?_) fun _ => .refl s
  split
  · exact .refl s
  · exact .ite (fun _ => (modSp_only ..).cellSteps.trans (makeHead_cellSteps ..)) fun _ => (modSp_only ..).cellSteps

theorem takePulse_cellSteps (s : State) : CellSteps s (takePulse s) := by
  have restored : ∀ s, CellSteps s (restoreReference s) := fun s =>
    .ite (fun _ => (modSp_only s _).cellSteps.trans (.creates (report_creates ..))) fun _ => .refl s
  exact .ite (fun _ => (modSp_only s _).cellSteps.trans (restored _)) fun _ => .refl s

theorem loseReference_cellSteps (s : State) : CellSteps s (loseReference s) :=
  .ite (fun _ => (modSp_only ..).cellSteps.trans (.creates (report_creates ..))) fun _ => .refl s

/-! ### Requests -/

/-- R53: an accepted SCHED entry. -/
theorem storeSched_cellSteps (f : CellEngine → CellEngine) (s : State) (queues : (f s.cells).queues = s.cells.queues)
    (free : (f s.cells).free = s.cells.free)
    (length : SchedSound s.cells → 1 ≤ (f s.cells).schedLen ∧ (f s.cells).schedLen ≤ 32) :
    CellSteps s (storeSched f s).1 := .sched rfl queues free length rfl rfl

theorem writeSched_cellSteps (i : Nat) (e : List Byte) (s : State) : CellSteps s (writeSched i e s).1 := by
  unfold writeSched
  split
  · unfold writeSchedLength
    split
    · exact .refl s
    · next inRange =>
      simp only [Bool.or_eq_true, decide_eq_true_eq, not_or, not_lt] at inRange
      exact storeSched_cellSteps _ s rfl rfl fun _ => ⟨Nat.one_le_iff_ne_zero.2 inRange.1, inRange.2⟩
  · split
    · exact .refl s
    · unfold writeSchedClass
      split
      · exact .refl s
      · exact storeSched_cellSteps _ s rfl rfl fun sound => ⟨sound.1, sound.2.1⟩

theorem writeEntry_cellSteps (t : Table) (i : Nat) (e : List Byte) (s : State) : CellSteps s (writeEntry t i e s).1 := by
  unfold writeEntry
  split
  · exact .refl s
  · cases t with
    | route => exact (writeRoute_only ..).cellSteps
    | mix => exact (writeMix_only ..).cellSteps
    | conf => exact (writeConf_only ..).cellSteps
    | keymap => exact .creates (writeKeyMap_creates ..)
    | key => exact .creates (writeKey_creates ..)
    | camera => exact (writeCamera_only ..).cellSteps
    | tallymap => exact (writeTallymap_only ..).cellSteps
    | line => exact (writeLine_only ..).cellSteps
    | subst => exact (writeSubst_only ..).cellSteps
    | gpi => exact (writeGpi_only ..).cellSteps
    | sched => exact writeSched_cellSteps ..
    | node => exact (writeNode_only ..).cellSteps

theorem serveSet_cellSteps (src t : Byte) (i : Half) (e : List Byte) (s : State) :
    CellSteps s (serveSet src t i e s).1 := by
  unfold serveSet
  split
  · exact .refl s
  · split
    · exact .refl s
    · split
      · exact .refl s
      · exact writeEntry_cellSteps ..

theorem feedLoad_cellSteps (full : Bool) (fuel : Nat) (bs : List Byte) (r : LoadRec) (s : State) :
    CellSteps s (feedLoad full fuel bs r s).1 := by
  induction fuel generalizing bs r s with
  | zero => exact .refl s
  | succ fuel ih =>
    unfold feedLoad
    dsimp only
    split
    · split <;> exact .refl s
    · split
      · exact .refl s
      · split
        · exact writeEntry_cellSteps ..
        · exact (writeEntry_cellSteps ..).trans (ih ..)

theorem setLoad_cellSteps (l : Load) (s : State) : CellSteps s (setLoad l s) := (modMgmt_only ..).cellSteps

theorem serveLoadData_cellSteps (src seg : Byte) (d : List Byte) (s : State) :
    CellSteps s (serveLoadData src seg d s).1 := by
  unfold serveLoadData
  split
  · exact .refl s
  · split
    · exact .refl s
    · split
      · exact .refl s
      · split
        · exact (feedLoad_cellSteps ..).trans (setLoad_cellSteps ..)
        · split
          · exact setLoad_cellSteps ..
          · exact .refl s

theorem clearItems_cellSteps (items : Nat) (s : State) : CellSteps s (clearItems items s) := by
  have ports : SameRoles s.trunk (if items.testBit 16 then (clearPorts s).trunk else s.trunk) := by
    split
    · exact ⟨rfl, rfl, rfl, rfl, fun p => by cases p <;> rfl⟩
    · exact .refl _
  rw [clearItems_eq]
  refine .other ports.inserts ?_ ?_ ?_ <;> dsimp only
  · split <;> rfl
  · split <;> rfl
  · split <;> exact ⟨rfl, rfl, rfl⟩

/-- The Cell Engine of either reset: no cell queued, every buffer free, the default schedule. -/
theorem reset_cellSteps {s t : State} (queues : t.cells.queues = CellEngine.reset.queues)
    (free : t.cells.free = CellEngine.reset.free) (schedule : SameSchedule CellEngine.reset t.cells) : CellSteps s t :=
  .reset queues free (schedule.sound ⟨by decide, by decide, by decide, by decide⟩)

theorem serve_cellSteps (src : Byte) (r : Request) (s : State) : CellSteps s (serve src r s).1 := by
  cases r with
  | set t i e => exact serveSet_cellSteps ..
  | loadOpen t i n => exact (serveLoadOpen_only ..).cellSteps
  | loadData seg d => exact serveLoadData_cellSteps ..
  | take m => exact .creates (takeRequest_creates ..)
  | protect d m => exact (routerProtect_only ..).cellSteps
  | release d => exact (routerRelease_only ..).cellSteps
  | airlock d => exact (routerAirlock_only ..).cellSteps
  | showLock => exact (modMgmt_only s fun m => { m with showLock := true }).cellSteps
  | clear items =>
    show CellSteps s (serveClear items s).1
    unfold serveClear
    split
    · exact .refl s
    · exact clearItems_cellSteps ..
  | resetExecute =>
    show CellSteps s (serveExecute src s).1
    unfold serveExecute
    split
    · exact reset_cellSteps rfl rfl ⟨rfl, rfl, rfl⟩
    · exact .refl s
  | _ => exact .refl s

theorem takeRequestCell_cellSteps (src tag : Byte) (r : Request) (s : State) :
    CellSteps s (takeRequestCell src tag r s) := by
  have answered : ∀ kind reply s, CellSteps s (answer src tag kind reply s).1 := fun kind reply s =>
    (modMgmt_only ..).cellSteps.trans (.creates (.cell ..))
  have served : CellSteps s (serveNew src tag r s) := by
    have cleaned : ∀ s, CellSteps s (cleanIntegrity s) := fun s =>
      modTrunk_cellSteps _ s ⟨rfl, rfl, rfl, rfl, fun p => by cases p <;> rfl⟩
    exact .ite (fun _ => ((serve_cellSteps src r s).trans (answered ..)).trans (cleaned _))
      fun _ => (serve_cellSteps src r s).trans (answered ..)
  unfold takeRequestCell
  split
  · exact .ite (fun _ => .creates (sendCell_creates ..)) fun _ => served
  · exact served

theorem receiveCell_cellSteps (c : Cell) (s : State) : CellSteps s (receiveCell c s) := by
  unfold receiveCell
  split
  · next k _ =>
    cases k with
    | talkOn => exact .creates (takeTalkOn_creates ..)
    | talkOff => exact .creates (takeTalkOff_creates ..)
    | talkReply => exact .creates (takeTalkReply_creates ..)
    | confOn => exact (takeConfOn_only ..).cellSteps
    | confOff => exact (takeConfOff_only ..).cellSteps
    | call => exact (takeCall_only ..).cellSteps
    | callCancel => exact (takeCancel_only ..).cellSteps
    | tallySet => exact .creates (takeTallySet_creates ..)
    | request => exact takeRequestCell_cellSteps ..
    | reply => exact (takeReply_only ..).cellSteps
    | event => exact .refl s
  all_goals exact count_cellSteps rfl rfl rfl ⟨rfl, rfl, rfl⟩

/-! ### Frames -/

theorem enterBuffer_cellSteps (p : Port) (f : WireFrame) (s : State) : CellSteps s (enterBuffer p f s) :=
  .ite (fun _ => modPort_cellSteps _ _ s fun _ => Iff.rfl) fun _ => .refl s

theorem actOnFrame_cellSteps (marker : Option Epoch) (cell : Option Cell) (s : State) :
    CellSteps s (actOnFrame marker cell s) := by
  have counted : CellSteps s s.countChoice := (countChoice_only s).cellSteps
  unfold actOnFrame
  split
  · exact .refl s
  · exact takeMarker_cellSteps ..
  · exact receiveCell_cellSteps ..
  · exact .ite (fun _ => (counted.trans (takeMarker_cellSteps ..)).trans (receiveCell_cellSteps ..))
      fun _ => (counted.trans (receiveCell_cellSteps ..)).trans (takeMarker_cellSteps ..)

theorem readFrame_cellSteps (p : Port) (f : WireFrame) (s : State) : CellSteps s (readFrame p f s) := by
  have counted : ∀ fate s, CellSteps s (countBadCell p fate s) := fun fate s => by
    unfold countBadCell
    split
    · exact .ite (fun _ => modPort_cellSteps _ _ s fun _ => Iff.rfl) fun _ => .refl s
    · exact .refl s
  have copied : ∀ b s, CellSteps s (copySlots p b s) := fun b s => modPort_cellSteps p _ s fun _ => Iff.rfl
  exact (((((judgeConflict_cellSteps f s).trans (judgeMode_cellSteps ..)).trans (counted _ _)).trans
    (copied _ _)).trans (enterBuffer_cellSteps ..)).trans (actOnFrame_cellSteps ..)

theorem arrive_cellSteps (p : Port) (f : WireFrame) (s : State) : CellSteps s (arrive p f s) := by
  have counted := portCounted_cellSteps p (countFrame (headerGood f)) s
  refine .ite (fun _ => .ite (fun _ => ?_) fun _ => ?_) fun _ => ?_
  · exact (counted.trans (judgeConflict_cellSteps ..)).trans (enterBuffer_cellSteps ..)
  · exact counted.trans (readFrame_cellSteps ..)
  · exact counted.trans (enterBuffer_cellSteps ..)

theorem fillFrame_cellSteps (p : Port) (f : WireFrame) (s : State) : CellSteps s (fillFrame p f s).1 := by
  have collided : ∀ n t d o s, CellSteps s (collide n t d o s) := fun n t d o s =>
    .ite (fun _ => .refl s) fun _ => (modRoute_only ..).cellSteps.trans (.creates (report_creates ..))
  have one : ∀ b d o n (a : State × FrameBody), CellSteps a.1 (insertOne b d o n a).1 := fun b d o n a => by
    unfold insertOne
    split
    · exact .refl _
    · split
      · exact collided ..
      · exact .refl _
  have inserted : ∀ b d o, CellSteps s (insertAll b d o s).1 := fun b d o =>
    forFin_induct (α := State × FrameBody) (fun a => CellSteps s a.1) (insertOne b d o) (fun _ _ h => h.trans (one ..))
      (s, b) (.refl s)
  have offered : ∀ d b s, CellSteps s (offerSlot d b s).1 := fun d b s => by
    unfold offerSlot
    split
    · exact .refl s
    · exact .grant d s
  have filled := inserted (bodyOf f) (portDir p) (originator f)
  unfold fillFrame
  dsimp only
  generalize insertAll (bodyOf f) (portDir p) (originator f) s = r at filled ⊢
  split
  · exact filled.trans (offered ..)
  · exact .refl s

theorem sendFrame_cellSteps (p : Port) (s : State) : CellSteps s (sendFrame p s) := by
  have built : CellSteps s (buildFrame p s).1 := by
    unfold buildFrame
    dsimp only
    split
    · exact .refl s
    · exact .refl s
    · exact fillFrame_cellSteps ..
    · exact fillFrame_cellSteps ..
  have sent : ∀ x f s, CellSteps s (s.modTrunk (modPort p (afterSend x f))) := fun x f s =>
    modPort_cellSteps p (afterSend x f) s fun _ => Iff.rfl
  exact .ite (fun _ => .refl s) fun _ => built.trans (sent ..)

/-! ### The sample period -/

theorem runPeriod_cellSteps (tdm : Vector Sample 32) (s : State) : CellSteps s (runPeriod tdm s) := by
  have mixed : CellSteps s { s with mix := mixAfter (mixPeriods tdm s) s.mix, router := routerAfter tdm (mixPeriods tdm s) s } :=
    count_cellSteps rfl rfl rfl ⟨rfl, rfl, rfl⟩
  have ticked : ∀ s, CellSteps s (tick s) := fun s =>
    SameRoles.cellSteps (t := tick s) ⟨rfl, rfl, rfl, rfl, fun p => by cases p <;> rfl⟩ rfl
  exact ((mixed.trans (.creates (reportAllClipped_creates ..))).trans (lampFrame_only _).cellSteps).trans (ticked _)

/-! ### Every command -/

theorem act_cellSteps {f : State → State} {s t : State} (h : act f s = .next t) (hf : CellSteps s (f s)) :
    CellSteps s t := by
  cases h
  exact .ite (fun _ => hf) fun _ => .refl s

theorem fromCell_cellSteps {src : Byte} {f : State → State} {s t : State} (h : act (fromCell src f) s = .next t)
    (hf : CellSteps s (f s)) : CellSteps s t :=
  act_cellSteps h (.ite (fun _ => .refl s) fun _ => .ite (fun _ => hf) fun _ =>
    count_cellSteps rfl rfl rfl ⟨rfl, rfl, rfl⟩)

theorem exec_cellSteps (c : Instr) (s t : State) (h : exec c s = .next t) : CellSteps s t := by
  cases c with
  | pinReset a hd =>
    cases h
    exact reset_cellSteps rfl rfl ⟨rfl, rfl, rfl⟩
  | frameArrival p f =>
    cases h
    exact .ite (fun _ => arrive_cellSteps ..) fun _ => modPort_cellSteps _ _ s fun _ => Iff.rfl
  | missingFrame p => exact act_cellSteps h (.ite (fun _ => portCounted_cellSteps ..) fun _ => .refl s)
  | outputFrameSend p => exact act_cellSteps h (sendFrame_cellSteps ..)
  | samplePeriod tdm =>
    cases h
    exact .ite (fun _ => runPeriod_cellSteps ..) fun _ =>
      SameRoles.cellSteps (t := repeaterPeriod s) ⟨rfl, rfl, rfl, rfl, fun p => by cases p <;> rfl⟩ rfl
  | referencePulse => exact act_cellSteps h (takePulse_cellSteps s)
  | referenceLost => exact act_cellSteps h (loseReference_cellSteps s)
  | scheduledSwitchPoint => exact act_cellSteps h (scheduledPoint_cellSteps s)
  | headFreeRun => exact act_cellSteps h (.ite (fun _ => makeHead_cellSteps ..) fun _ => .refl s)
  | epochHoldOffEnd => exact act_cellSteps h (.ite (fun _ => (modSp_only ..).cellSteps) fun _ => .refl s)
  | localSwitchPoint => exact act_cellSteps h (localPoint_cellSteps s)
  | originResend i => exact act_cellSteps h (.ite (fun _ => .creates (resendOrigin_creates ..)) fun _ => .refl s)
  | leaseExpiry l n i => exact act_cellSteps h (.ite (fun _ => .creates (expireTalker_creates ..)) fun _ => .refl s)
  | callExpiry t c =>
    exact act_cellSteps h (.ite (fun _ => ((modCalls_only ..).trans (resolveFor_only ..)).cellSteps) fun _ => .refl s)
  | keyWindowEnd m k => exact act_cellSteps h (modKey_only ..).cellSteps
  | routeCountdownEnd m k => exact act_cellSteps h (modKey_only ..).cellSteps
  | loadAbandoned => exact act_cellSteps h (abandonIfDue_cellSteps s)
  | lampPeriodStart => exact act_cellSteps h (lampPeriodStart_only s).cellSteps
  | faultSense reads => exact act_cellSteps h (.creates (takeFaultReads_creates ..))
  | gpiSample closed => exact act_cellSteps h (takeGpiSample_only ..).cellSteps
  | scan i bytes => exact act_cellSteps h (.creates (takeScan_creates ..))
  | autoHoldReached m k => exact act_cellSteps h (modKey_only ..).cellSteps
  | panelTimeout i => exact act_cellSteps h (.creates (timeoutLine_creates ..))
  | talkOn src tag m => exact fromCell_cellSteps h (.creates (takeTalkOn_creates ..))
  | talkOff src tag m => exact fromCell_cellSteps h (.creates (takeTalkOff_creates ..))
  | talkReply src tag m => exact fromCell_cellSteps h (.creates (takeTalkReply_creates ..))
  | confOn src tag m => exact fromCell_cellSteps h (takeConfOn_only ..).cellSteps
  | confOff src tag m => exact fromCell_cellSteps h (takeConfOff_only ..).cellSteps
  | call src tag m => exact fromCell_cellSteps h (takeCall_only ..).cellSteps
  | callCancel src tag m => exact fromCell_cellSteps h (takeCancel_only ..).cellSteps
  | tallySet src tag m => exact fromCell_cellSteps h (.creates (takeTallySet_creates ..))
  | reply src tag m => exact fromCell_cellSteps h (takeReply_only ..).cellSteps
  | _ => exact fromCell_cellSteps h (takeRequestCell_cellSteps ..)

/-- A step runs a command on the node with the rest of its queue, or idles. -/
theorem step_cellSteps {s t : State} (h : step s = .next t) : CellSteps s t := by
  unfold step at h
  split at h
  · cases h
    exact .refl s
  · next rest _ =>
    have taken : CellSteps s { s with pending := rest } := count_cellSteps rfl rfl rfl ⟨rfl, rfl, rfl⟩
    exact taken.trans (exec_cellSteps _ _ _ h)

/-- Settles O6: what a step does to the Cell Engine (`step_cellSteps`) keeps the pool and the schedule. -/
theorem poolKept : Obligations.PoolKept :=
  fun _ _ pool schedule h => ⟨(step_cellSteps h).pool pool, (step_cellSteps h).schedule schedule⟩

/-- Settles O7: what a step does to the Cell Engine (`step_cellSteps`) keeps the outstanding sets within the directions. -/
theorem directionsKept : Obligations.DirectionsKept :=
  fun s t live within h => (directed_iff t).1 ((step_cellSteps h).directed ((directed_iff s).2 ⟨live, within⟩))

end Sys2Proof.Machine
end

section
/-! SUPPORT. The creation of a cell, a report, the grant of a slot and the tests on a received cell (O5, O12, O13, O15). -/

namespace Sys2Proof.Machine

open Sys2Proof

/-! ### The creation of a cell (R42, R47, R48) -/

section
variable {kind : CellKind} {k : CellClass} {dest : Byte} (tag : Option Byte) (payload : List Byte) {s : State}

/-- The tag counter moves where the block gives no tag. -/
def tagTaken (tag : Option Byte) (n : Byte) : Byte := if tag = none then n + 1 else n

theorem undeliverable_test (addr : Byte) : (decide (dest = 0) || decide (dest = addr)) = decide (dest = 0 ∨ dest = addr) :=
  (Bool.decide_or ..).symm

theorem createRaw_undeliverable (hk : kindClass kind = some k) (hd : dest = 0 ∨ dest = s.trunk.addr) :
    createRaw kind dest tag payload s = (s.modCells (countUndeliverable k 1), none) := by
  unfold createRaw
  simp only [hk, undeliverable_test]
  exact if_pos (decide_eq_true hd)

theorem createRaw_lost (hk : kindClass kind = some k) (h0 : dest ≠ 0) (hd : dest ≠ s.trunk.addr) (hf : s.cells.free = 0) :
    createRaw kind dest tag payload s = (loseCell k s, none) := by
  unfold createRaw
  simp only [hk, undeliverable_test]
  rw [if_neg (by simpa using ⟨h0, hd⟩), if_pos hf]

/-- R47: a cell that finds a buffer is queued, or is undeliverable where nothing is inserted into. -/
theorem createRaw_made (hk : kindClass kind = some k) (h0 : dest ≠ 0) (hd : dest ≠ s.trunk.addr) (hf : 0 < s.cells.free) :
    createRaw kind dest tag payload s = (s.modCells fun c =>
      if inserts s.trunk .cw || inserts s.trunk .ccw then
        { c with
          tag := tagTaken tag c.tag, free := c.free - 1
          queues := c.queues.mod k (· ++ [{ cell := makeCell kind dest (tag.getD c.tag) payload s
                                            cw := inserts s.trunk .cw, ccw := inserts s.trunk .ccw, sent := false }]) }
      else { c with tag := tagTaken tag c.tag, undeliverable := c.undeliverable.mod k (satAdd · 1) },
      some (tag.getD s.cells.tag)) := by
  unfold createRaw
  simp only [hk, undeliverable_test]
  rw [if_neg (by simpa using ⟨h0, hd⟩), if_neg (by omega)]
  cases inserts s.trunk .cw || inserts s.trunk .ccw <;> cases tag <;> rfl

/-- Where no tag is answered, or a direction is inserted into, no buffer returns. -/
theorem createCell_raw (h : (createRaw kind dest tag payload s).2 = none ∨
    (inserts s.trunk .cw || inserts s.trunk .ccw) = true) :
    createCell kind dest tag payload s = createRaw kind dest tag payload s := by
  unfold createCell
  obtain h | h := h <;> simp [h]

theorem createCell_undeliverable (hk : kindClass kind = some k) (hd : dest = 0 ∨ dest = s.trunk.addr) :
    createCell kind dest tag payload s = (s.modCells (countUndeliverable k 1), none) := by
  have raw := createRaw_undeliverable tag payload hk hd
  rw [createCell_raw tag payload (.inl (by rw [raw])), raw]

theorem createCell_lost (hk : kindClass kind = some k) (h0 : dest ≠ 0) (hd : dest ≠ s.trunk.addr) (hf : s.cells.free = 0) :
    createCell kind dest tag payload s = (loseCell k s, none) := by
  have raw := createRaw_lost tag payload hk h0 hd hf
  rw [createCell_raw tag payload (.inl (by rw [raw])), raw]

theorem createCell_queued (hk : kindClass kind = some k) (h0 : dest ≠ 0) (hd : dest ≠ s.trunk.addr) (hf : 0 < s.cells.free)
    (hi : inserts s.trunk .cw = true ∨ inserts s.trunk .ccw = true) :
    createCell kind dest tag payload s = (s.modCells fun c =>
      { c with
        tag := tagTaken tag c.tag, free := c.free - 1
        queues := c.queues.mod k (· ++ [{ cell := makeCell kind dest (tag.getD c.tag) payload s
                                          cw := inserts s.trunk .cw, ccw := inserts s.trunk .ccw, sent := false }]) },
      some (tag.getD s.cells.tag)) := by
  have inserted : (inserts s.trunk .cw || inserts s.trunk .ccw) = true := Bool.or_eq_true_iff.2 hi
  rw [createCell_raw tag payload (.inr inserted), createRaw_made tag payload hk h0 hd hf]
  simp only [inserted, if_true]

theorem createCell_nowhere (hk : kindClass kind = some k) (h0 : dest ≠ 0) (hd : dest ≠ s.trunk.addr)
    (hf : 0 < s.cells.free) (hcw : inserts s.trunk .cw = false) (hccw : inserts s.trunk .ccw = false) :
    createCell kind dest tag payload s = (bufferReturned (s.modCells fun c =>
      { c with tag := tagTaken tag c.tag, undeliverable := c.undeliverable.mod k (satAdd · 1) }),
      some (tag.getD s.cells.tag)) := by
  unfold createCell
  rw [createRaw_made tag payload hk h0 hd hf]
  simp [hcw, hccw]

end

/-! ### A report (R203) -/

theorem setSticky_flag (k : EventKind) (flags : BitVec 16) {i : Nat} (hi : i < 16) :
    (setSticky k flags).getLsbD i = (flags.getLsbD i || decide (i = eventCode k)) := by
  rw [setSticky, BitVec.getLsbD_or, BitVec.getLsbD_ofNat, Nat.testBit_two_pow]
  simp [hi, eq_comm]

/-- R203: the node with the flag of a report set. -/
def flagged (k : EventKind) (s : State) : State := s.modMgmt fun m => { m with sticky := setSticky k m.sticky }

theorem report_unsent (k : EventKind) (fields : List Byte) {s : State}
    (h : s.mgmt.params.ctrl = 0 ∨ 62 < s.mgmt.params.ctrl) : report k fields s = flagged k s := by
  have unset : ¬controllerSet (flagged k s).mgmt = true := by
    rw [controllerSet_iff]
    show ¬(1 ≤ s.mgmt.params.ctrl ∧ s.mgmt.params.ctrl ≤ 62)
    omega
  exact if_neg unset

theorem report_sent (k : EventKind) (fields : List Byte) {s : State} (h1 : 1 ≤ s.mgmt.params.ctrl)
    (h62 : s.mgmt.params.ctrl ≤ 62) : report k fields s =
      (createCell .event (b8 s.mgmt.params.ctrl) none (b8 (eventCode k) :: fields) (flagged k s)).1 :=
  if_pos ((controllerSet_iff (flagged k s).mgmt).2 ⟨h1, h62⟩)

/-- Settles O12: the four outcomes of a creation (`createCell_undeliverable`, `createCell_lost`, `createCell_queued`,
`createCell_nowhere`) and what a report does (`report_unsent`, `report_sent`). -/
theorem cellCreated : Obligations.CellCreated := by
  refine ⟨fun k => by cases k <;> rfl, fun k fields s => ?_, fun kind k dest tag payload s hk => ?_⟩
  · have flag : ∀ i < 16, _ := fun i hi => setSticky_flag k s.mgmt.sticky hi
    have unsent := report_unsent k fields (s := s)
    have sent := report_sent k fields (s := s)
    cases k <;> exact ⟨_, flag, unsent, sent⟩
  · exact ⟨createCell_undeliverable tag payload hk, createCell_lost tag payload hk, createCell_queued tag payload hk,
      createCell_nowhere tag payload hk⟩

/-! ### The grant of a slot (R51, R54) -/

theorem sentIn_eq (d : Dir) (q : QCell) :
    q.sentIn d = { q with cw := q.cw && d != .cw, ccw := q.ccw && d != .ccw, sent := true } := by
  cases d <;> simp [QCell.sentIn]

theorem done_iff (q : QCell) : q.done = true ↔ q.cw = false ∧ q.ccw = false := by simp [QCell.done]

theorem takeOldest_none {d : Dir} {q : List QCell} (h : ∀ x ∈ q, x.has d = false) : takeOldest d q = none := by
  induction q with
  | nil => rfl
  | cons x q ih =>
    obtain ⟨hx, hq⟩ := List.forall_mem_cons.1 h
    simp [takeOldest, hx, ih hq]

theorem takeOldest_append {d : Dir} {pre : List QCell} {q : QCell} (post : List QCell) (hpre : ∀ x ∈ pre, x.has d = false)
    (hq : q.has d = true) : takeOldest d (pre ++ q :: post) =
      some (q.cell, if (q.sentIn d).done then pre ++ post else pre ++ q.sentIn d :: post) := by
  induction pre with
  | nil => simp [takeOldest, hq]
  | cons x pre ih =>
    obtain ⟨hx, hpre⟩ := List.forall_mem_cons.1 hpre
    simp only [List.cons_append, takeOldest, hx, ih hpre]
    cases (q.sentIn d).done <;> rfl

section
variable {c : CellEngine} {d : Dir} {i : Nat}

/-- R54: entry `n` from `i` on, round the entries in use. -/
theorem entry_succ (hi : i < c.schedLen) (n : Nat) :
    ((if i + 1 ≥ c.schedLen then 0 else i + 1) + n) % c.schedLen = (i + (n + 1)) % c.schedLen := by
  rw [nextEntry hi, Nat.mod_add_mod, Nat.add_right_comm, Nat.add_assoc]

theorem next_lt (hi : i < c.schedLen) : (if i + 1 ≥ c.schedLen then 0 else i + 1) < c.schedLen := by
  rw [nextEntry hi]
  exact Nat.mod_lt _ (by omega)

theorem findWinner_none {fuel : Nat} (hi : i < c.schedLen)
    (h : ∀ n < fuel, takeOldest d (c.queues.get (schedAt c ((i + n) % c.schedLen))) = none) :
    findWinner c d i fuel = none := by
  induction fuel generalizing i with
  | zero => rfl
  | succ fuel ih =>
    have first := h 0 (by omega)
    rw [Nat.add_zero, Nat.mod_eq_of_lt hi] at first
    rw [findWinner, first]
    exact ih (next_lt hi) fun n hn => by
      rw [entry_succ hi]
      exact h (n + 1) (by omega)

theorem findWinner_first {fuel n : Nat} {r : Cell × List QCell} (hi : i < c.schedLen) (hn : n < fuel)
    (before : ∀ m < n, takeOldest d (c.queues.get (schedAt c ((i + m) % c.schedLen))) = none)
    (won : takeOldest d (c.queues.get (schedAt c ((i + n) % c.schedLen))) = some r) :
    findWinner c d i fuel = some ((i + n) % c.schedLen, r) := by
  induction fuel generalizing i n with
  | zero => omega
  | succ fuel ih =>
    rw [findWinner]
    cases n with
    | zero =>
      have start : (i + 0) % c.schedLen = i := Nat.mod_eq_of_lt hi
      rw [start] at won ⊢
      rw [won]
    | succ n =>
      have first := before 0 (by omega)
      rw [Nat.add_zero, Nat.mod_eq_of_lt hi] at first
      rw [first]
      have later := ih (n := n) (next_lt hi) (by omega) (fun m hm => by
        rw [entry_succ hi]
        exact before (m + 1) (by omega)) (by rwa [entry_succ hi])
      rwa [entry_succ hi] at later

end

theorem grant_none {d : Dir} {s : State} (h : findWinner s.cells d (schedIndex s.cells d) s.cells.schedLen = none) :
    grant d s = (s, none) := by
  simp [grant, h]

theorem grant_won {d : Dir} {s : State} {i : Nat} {cell : Cell} {q : List QCell}
    (h : findWinner s.cells d (schedIndex s.cells d) s.cells.schedLen = some (i, cell, q)) : grant d s =
      (if (s.cells.queues.get (schedAt s.cells i)).length - q.length = 0 then s.modCells (granted d i q)
        else bufferReturned (s.modCells (granted d i q)), some cell) := by
  simp only [grant, h]
  rfl

section
variable {d : Dir} {s : State} {i : Nat} {pre post : List QCell} {q : QCell} (hi : i < s.cells.schedLen)
  (queue : s.cells.queues.get (schedAt s.cells i) = pre ++ q :: post)
include hi queue

/-- R51: the cell that is sent has no direction left; its buffer returns. -/
theorem grant_gone (won : findWinner s.cells d (schedIndex s.cells d) s.cells.schedLen = some (i, q.cell, pre ++ post)) :
    grant d s = (bufferReturned (s.modCells fun c => setSchedIndex d ((i + 1) % c.schedLen)
      { c with free := c.free + 1, queues := c.queues.mod (schedAt c i) fun _ => pre ++ post }), some q.cell) := by
  have freed : (pre ++ q :: post).length - (pre ++ post).length = 1 := by
    simp only [List.length_append, List.length_cons]
    omega
  rw [grant_won won, queue, freed, if_neg Nat.one_ne_zero]
  simp only [State.modCells, granted, nextEntry hi, queue, freed]

/-- R51: the cell that is sent keeps its other direction and its place. -/
theorem grant_left {x : QCell}
    (won : findWinner s.cells d (schedIndex s.cells d) s.cells.schedLen = some (i, q.cell, pre ++ x :: post)) :
    grant d s = (s.modCells fun c => setSchedIndex d ((i + 1) % c.schedLen)
      { c with queues := c.queues.mod (schedAt c i) fun _ => pre ++ x :: post }, some q.cell) := by
  have freed : (pre ++ q :: post).length - (pre ++ x :: post).length = 0 := by simp
  rw [grant_won won, queue, freed, if_pos rfl]
  simp only [State.modCells, granted, nextEntry hi, queue, freed, Nat.add_zero]

end

/-- Settles O13: the first class with a cell for the direction wins (`findWinner_first`), and its oldest cell is sent
(`takeOldest_append`) and leaves its queue (`grant_gone`) or stays in it (`grant_left`). -/
theorem slotGranted : Obligations.SlotGranted := by
  intro s d sound
  have index := schedIndex_lt sound d
  refine ⟨fun empty => grant_none (findWinner_none index fun n hn => takeOldest_none (empty n hn)),
    fun n pre post q hn before queue hpre hq => ?_⟩
  have won := findWinner_first index hn (fun m hm => takeOldest_none (before m hm))
    ((congrArg _ queue).trans (takeOldest_append post hpre hq))
  have inUse : (schedIndex s.cells d + n) % s.cells.schedLen < s.cells.schedLen := Nat.mod_lt _ (by omega)
  have gone_iff := done_iff (q.sentIn d)
  rw [sentIn_eq] at won gone_iff
  intro left gone sent
  by_cases isGone : gone
  · rw [if_pos (gone_iff.2 isGone)] at won
    rw [grant_gone inUse queue won, if_pos isGone]
    simp only [sent, if_pos isGone]
  · rw [if_neg (fun h => isGone (gone_iff.1 h))] at won
    rw [grant_left inUse queue won, if_neg isGone]
    simp only [sent, if_neg isGone]
    rfl

/-! ### The tests on a received cell (R44) -/

theorem kindOf_unknown {b : Byte} (h : 11 ≤ b.toNat) : kindOf b = none := List.getElem?_eq_none h

theorem kindOf_kindCode (k : CellKind) : kindOf (kindCode k) = some k := by cases k <;> rfl

theorem sourceOk_iff (src : Byte) : sourceOk src = true ↔ 1 ≤ src.toNat ∧ src.toNat ≤ 62 := by simp [sourceOk]

section
variable {k : CellKind} {c : Cell} {s : State}

theorem receiveCell_unknown (h : 11 ≤ c.kind.toNat) : receiveCell c s = countUnknown s := by
  simp [receiveCell, testCell, kindOf_unknown h]

theorem receiveCell_malformed (hk : c.kind = kindCode k) (h : sourceOk c.src = false ∨ lengthOk k c.len.toNat = false) :
    receiveCell c s = countMalformed s := by
  have test : testCell s.trunk.addr c = .malformed := by
    rw [testCell, hk, kindOf_kindCode]
    exact if_pos (by simpa using h)
  rw [receiveCell, test]

/-- R44: a cell that is well formed is handed over, or is counted where its destination does not fit its kind. -/
theorem receiveCell_formed (hk : c.kind = kindCode k) (hs : sourceOk c.src = true) (hl : lengthOk k c.len.toNat = true) :
    receiveCell c s = if destOk k c.dest s.trunk.addr then handCell k c s else countMisaddressed s := by
  have test : testCell s.trunk.addr c = if destOk k c.dest s.trunk.addr then .pass k else .misaddressed := by
    rw [testCell, hk, kindOf_kindCode]
    exact if_neg (by simp [hs, hl])
  rw [receiveCell, test]
  cases destOk k c.dest s.trunk.addr <;> rfl

end

/-- Settles O15: the tests in their order (`receiveCell_unknown`, `receiveCell_malformed`, `receiveCell_formed`). -/
theorem cellsTested : Obligations.CellsTested := by
  refine ⟨fun k => by cases k <;> rfl, fun k n => by cases k <;> simp [lengthOk], fun c s =>
    ⟨receiveCell_unknown, fun k hk => ⟨fun bad => receiveCell_malformed hk ?_, fun h1 h62 hl => ?_⟩⟩⟩
  · rwa [← sourceOk_iff, Bool.not_eq_true] at bad
  · have formed := receiveCell_formed (s := s) hk ((sourceOk_iff _).2 ⟨h1, h62⟩) hl
    refine ⟨fun other => ?_, fun mine => ?_⟩
    · have misaddressed : destOk k c.dest s.trunk.addr = false := by cases k <;> simp_all [destOk]
      rw [formed, misaddressed]
      rfl
    · have passes : destOk k c.dest s.trunk.addr = true := by cases k <;> simp_all [destOk]
      rw [formed, if_pos passes]

/-! ### The reset state -/

/-- Settles O5: the queues, lists, links and commands are empty, and the records hold the values of either reset. -/
theorem resetIsSound : Obligations.ResetIsSound := by
  refine ⟨rfl, ⟨by decide, by decide, by decide, by decide⟩, fun k q mem => ?_, fun k q mem => ?_, fun m => ?_, ?_,
    fun i j _ _ _ t slot => ?_, fun d => ?_, fun l => ?_, ⟨by decide, .nil⟩, ⟨by decide, .nil, .nil, fun x mem => ?_⟩, rfl⟩
  · cases k <;> cases mem
  · cases k <;> cases mem
  · have record : State.reset.mix.recs[m] = MixRec.reset := vof_get ..
    rw [record]
    exact ⟨⟨by decide, by decide, by decide, fun _ => rfl⟩, by decide, .nil⟩
  · exact ⟨by decide, ⟨by decide, by decide⟩, ⟨by decide, by decide⟩, by decide, by decide, by decide, by decide⟩
  · have entry : State.reset.router.routes[i] = RouteEntry.reset := vof_get ..
    rw [entry] at slot
    cases slot
  · have entry : State.reset.router.routes[d] = RouteEntry.reset := vof_get ..
    rw [entry]
    trivial
  · have empty : listOf State.reset.talk l = [] := by
      cases l with
      | direct m => exact vof_get ..
      | conf c => exact congrArg ConfEntry.list (vof_get 64 (fun _ => ConfEntry.mk false []) c)
    rw [empty]
    exact ⟨by decide, .nil⟩
  · cases mem

end Sys2Proof.Machine
end

section
/-! SUPPORT. Repeated requests, replies and the prepared reset (O50, O60). -/

namespace Sys2Proof.Machine

open Sys2Proof

/-! ### Repeats and replies (R189, R191) -/

section
variable {src tag : Byte} {r : Request} {s : State}

/-- R191: a repeat is answered with the saved reply and not served. -/
theorem takeRequestCell_repeat {e : ReqEntry} (he : entryOf s.mgmt src = some e) (hk : e.kind = requestCode r)
    (ht : e.tag = tag) :
    takeRequestCell src tag r s = sendCell .reply src (some tag) (requestCode r :: e.reply) s := by
  have same : isRepeatOf tag r e = true := by simp [isRepeatOf, hk, ht]
  simp [takeRequestCell, he, same]

theorem isPage1_false (h : ∀ p, r = .status p → p ≠ 1) : isPage1 r = false := by
  cases r <;> simp_all [isPage1]

/-- R189: where a cell can leave the node, a reply is recorded and its REPLY cell is queued. -/
theorem replied_queued (kind : Byte) (code : Code) (fields : List Byte) (h : Reaches s src) (hf : 0 < s.cells.free)
    (hi : inserts s.trunk .cw = true ∨ inserts s.trunk .ccw = true) : replied src tag kind code fields s = { s with
      mgmt := { s.mgmt with
        requesters := s.mgmt.requesters.set (src.toNat % 64)
          (some { kind := kind, tag := tag, reply := codeByte code :: fields, count := 0 }) (Nat.mod_lt _ (by omega)) }
      cells := { s.cells with
        free := s.cells.free - 1
        queues := s.cells.queues.mod .reply (· ++ [{
          cell := makeCell .reply src tag (kind :: codeByte code :: fields) s
          cw := inserts s.trunk .cw, ccw := inserts s.trunk .ccw, sent := false }]) } } := by
  obtain ⟨_, sound, foreign⟩ := h
  have someone : src ≠ 0 := by
    rintro rfl
    exact absurd sound (by decide)
  let recorded := writeRequester src { kind := kind, tag := tag, reply := codeByte code :: fields, count := 0 } s
  exact congrArg Prod.fst (createCell_queued (kind := .reply) (some tag) (kind :: codeByte code :: fields) (s := recorded)
    rfl someone foreign hf hi)

end

/-- Settles O50: a repeat by `takeRequestCell_repeat`, a new request by `request_fresh`, its reply by `replied_queued`. -/
theorem requestsAnswered : Obligations.RequestsAnswered := by
  intro s src tag reaches
  refine ⟨fun r e he hk ht => ?_, fun r fresh page => request_fresh fresh (isPage1_false page),
    fun kind code fields free inserted => replied_queued kind code fields reaches free inserted⟩
  rw [request, act_fromCell reaches, takeRequestCell_repeat he hk ht]

/-! ### The prepared reset (R204, R205) -/

theorem prepared_iff (e : Option ReqEntry) : prepared e = true ↔ ∃ x, e = some x ∧ x.kind = 12 ∧ x.count ≤ 1 := by
  cases e <;> simp [prepared]

/-- R205: the Trunk Interface and the Switch Point Unit run on. -/
theorem inBandReset_keeps_trunk (s : State) :
    Only [.cells, .router, .talk, .mix, .panel, .tally, .lamp, .mgmt] s (inBandReset s) := by
  refine ⟨fun b other => ?_⟩
  cases b with
  | cells | router | talk | mix | panel | tally | lamp | mgmt => exact absurd (by decide) other
  | _ => rfl

theorem inBandReset_line (s : State) (i : LineId) : (inBandReset s).panel.lines[i] =
    { PanelLine.reset with badScans := s.panel.lines[i].badScans, lamps := s.panel.lines[i].lamps } := vmap_get ..

/-- Settles O60: the requests are served as new ones (`request_fresh`), and a reset is what `inBandReset` leaves. -/
theorem resetsServed : Obligations.ResetsServed := by
  refine fun s src tag => ⟨fun fresh => request_fresh (r := .showLock) fresh rfl,
    fun fresh => request_fresh (r := .resetPrepare) fresh rfl, fun fresh => ?_⟩
  have served := request_fresh (r := .resetExecute) fresh rfl
  intro ready
  refine ⟨fun unready => ?_, fun isReady => ⟨inBandReset s, ?_, inBandReset_keeps_trunk s, rfl, rfl, rfl, rfl, rfl, rfl, rfl,
    inBandReset_line s, rfl, rfl, rfl⟩⟩
  · have unserved : serve src .resetExecute s = (s, plain .sequence) :=
      if_neg fun h => unready ((prepared_iff _).1 h)
    rw [unserved] at served
    exact served
  · have reset : serve src .resetExecute s = (inBandReset s, plain .ok) := if_pos ((prepared_iff _).2 isReady)
    rw [reset] at served
    exact served

end Sys2Proof.Machine
end

section
/-! SUPPORT. Fields, bitmaps, cells and table entries as bytes, read back as written (O16). -/

namespace Sys2Proof.Machine

open Sys2Proof

/-! ### Fields (R207) -/

@[simp] theorem byteAt_zero (b : Byte) (bs : List Byte) : byteAt (b :: bs) 0 = b := rfl

@[simp] theorem byteAt_succ (b : Byte) (bs : List Byte) (i : Nat) : byteAt (b :: bs) (i + 1) = byteAt bs i := rfl

@[simp] theorem halfAt_zero (b c : Byte) (bs : List Byte) : halfAt (b :: c :: bs) 0 = half b c := rfl

@[simp] theorem halfAt_succ (b : Byte) (bs : List Byte) (i : Nat) : halfAt (b :: bs) (i + 1) = halfAt bs i := rfl

theorem byteAt_append (xs ys : List Byte) (i : Nat) : byteAt (xs ++ ys) (xs.length + i) = byteAt ys i := by
  simp only [byteAt, List.getD_eq_getElem?_getD]
  rw [List.getElem?_append_right (by omega), Nat.add_sub_cancel_left]

theorem halfAt_append (xs ys : List Byte) : halfAt (xs ++ ys) xs.length = halfAt ys 0 :=
  congrArg₂ half (byteAt_append xs ys 0) (byteAt_append xs ys 1)

@[simp] theorem b8_toNat_byte (b : Byte) : b8 b.toNat = b := BitVec.ofNat_toNat ..

theorem b8_toNat (n : Nat) : (b8 n).toNat = n % 256 := BitVec.toNat_ofNat ..

theorem b8_toNat_of_lt {n : Nat} (h : n < 256) : (b8 n).toNat = n := (b8_toNat n).trans (Nat.mod_eq_of_lt h)

theorem half_toNat (hi lo : Byte) : (half hi lo).toNat = hi.toNat * 256 + lo.toNat :=
  (BitVec.toNat_ofNat ..).trans (Nat.mod_eq_of_lt (by omega))

theorem half_high (hi lo : Byte) : (half hi lo).toNat / 256 = hi.toNat := by
  rw [half_toNat]
  omega

theorem half_low (hi lo : Byte) : (half hi lo).toNat % 256 = lo.toNat := by
  rw [half_toNat]
  omega

theorem half_b16 {n : Nat} (h : n < 65536) : (half (b8 (n / 256)) (b8 n)).toNat = n := by
  rw [half_toNat, b8_toNat, b8_toNat]
  omega

@[simp] theorem half_halfBytes (h : Half) : half (b8 (h.toNat / 256)) (b8 h.toNat) = h :=
  BitVec.eq_of_toNat_eq (half_b16 h.isLt)

@[simp] theorem asFin_val {n : Nat} (i : Fin n) : asFin n i.val = some i := dif_pos i.isLt

theorem asFin_b8 {n : Nat} (hn : n ≤ 256) (i : Fin n) : asFin n (b8 i.val).toNat = some i := by
  rw [b8_toNat_of_lt (by omega), asFin_val]

theorem asFin_b16 {n : Nat} (hn : n ≤ 65536) (i : Fin n) : asFin n (half (b8 (i.val / 256)) (b8 i.val)).toNat = some i := by
  rw [half_b16 (by omega), asFin_val]

@[simp] theorem readFlag_flagByte (b : Bool) : readFlag (flagByte b) = some b := by cases b <;> rfl

/-! ### Bitmaps (R207) -/

theorem bitmap_length (n set : Nat) : (bitmap n set).length = n := by simp [bitmap]

theorem bitmap_succ (n set : Nat) : bitmap (n + 1) set = b8 set :: bitmap n (set / 256) := by
  simp only [bitmap, List.range_succ_eq_map, List.map_cons, List.map_map, Nat.pow_zero, Nat.div_one]
  congr 1
  refine List.map_congr_left fun i _ => congrArg b8 ?_
  rw [Nat.pow_succ', Nat.div_div_eq_div_mul]

theorem ofBitmap_bitmap (n set : Nat) : ofBitmap (bitmap n set) = set % 256 ^ n := by
  induction n generalizing set with
  | zero => simp [bitmap, ofBitmap, Nat.mod_one]
  | succ n ih =>
    rw [bitmap_succ, ofBitmap, List.foldr_cons, ← ofBitmap, ih, b8_toNat, Nat.pow_succ', Nat.mod_mul]

/-! ### Sources and points (R207) -/

theorem sourceBytes_length (x : Source) : (sourceBytes x).length = 2 := by cases x <;> rfl

theorem readSource_sourceBytes (x : Source) (rest : List Byte) :
    readSource (halfAt (sourceBytes x ++ rest) 0) = some x := by
  cases x <;> simp [readSource, sourceBytes, half_high, half_low, asFin_b8]

theorem pointBytes_length (p : Option PointId) : (pointBytes p).length = 2 := by cases p <;> rfl

theorem readPointOpt_pointBytes (p : Option PointId) (rest : List Byte) :
    readPointOpt (halfAt (pointBytes p ++ rest) 0) = some p := by
  cases p with
  | none =>
    have absent : half 0xFF 0xFF = 0xFFFF := by decide
    exact if_pos absent
  | some p =>
    have present : half (b8 (p.val / 256)) (b8 p.val) ≠ 0xFFFF := fun absent => by
      have value := (half_b16 (n := p.val) (by omega)).symm.trans (congrArg BitVec.toNat absent)
      have limit : (0xFFFF : Half).toNat = 65535 := rfl
      omega
    exact (if_neg present).trans (congrArg (Option.map some) (asFin_b16 (by decide) p))

/-! ### Headers (R208) -/

theorem crc_append (l : List Byte) (b : Byte) : crc (l ++ [b]) = crcByte (crc l) b := by simp [crc]

theorem headerGood_iff (f : WireFrame) :
    headerGood f = true ↔ f.check = crc [f.kind, f.orig, f.marker, f.epoch] ∧ (f.kind = 0x5A ∨ f.kind = 0xA5) := by
  simp [headerGood, headerBytes, eq_comm (a := f.check)]

theorem getLsbD_byte (b : Byte) (i : Nat) : b.getLsbD i = decide (b.toNat / 2 ^ i % 2 = 1) :=
  Nat.testBit_eq_decide_div_mod_eq

theorem originator_toNat (f : WireFrame) : (originator f).toNat = f.orig.toNat % 64 :=
  (BitVec.toNat_and ..).trans (Nat.and_two_pow_sub_one_eq_mod _ 6)

theorem headPassed_iff (f : WireFrame) : headPassed f = true ↔ 64 ≤ f.orig.toNat % 128 := by
  rw [headPassed, getLsbD_byte, decide_eq_true_eq]
  omega

theorem bit7_iff (b : Byte) : b.getLsbD 7 = true ↔ 128 ≤ b.toNat := by
  rw [getLsbD_byte, decide_eq_true_eq]
  omega

/-! ### Cells (R43, R209) -/

section
variable (c : Cell)

/-- R209: the payload is as long as the length byte says and fits a cell. -/
theorem readCell_bytes (check : Half) (rest : List Byte) (h40 : c.payload.length ≤ 40) (hl : c.len.toNat = c.payload.length) :
    readCell (cellBytes c ++ halfBytes check ++ rest) = (c, decide (check = crc (cellBytes c))) := by
  have size : (cellBytes c).length = 5 + c.len.toNat := by
    rw [hl]
    simp [cellBytes]
    omega
  have payload : ((cellBytes c ++ halfBytes check ++ rest).drop 5).take c.len.toNat = c.payload := by
    simp [cellBytes, hl]
  have covered : (cellBytes c ++ halfBytes check ++ rest).take (5 + c.len.toNat) = cellBytes c := by
    rw [← size, List.append_assoc, List.take_left]
  have checked : halfAt (cellBytes c ++ halfBytes check ++ rest) (5 + c.len.toNat) = check := by
    rw [← size, List.append_assoc, halfAt_append]
    exact half_halfBytes check
  have lenByte : byteAt (cellBytes c ++ halfBytes check ++ rest) 4 = c.len := rfl
  rw [readCell]
  simp only [lenByte, payload, covered, checked, if_pos (hl ▸ h40)]
  exact congrArg (Prod.mk c) (Bool.eq_iff_iff.2 (by rw [beq_iff_eq, decide_eq_true_eq, eq_comm]))

/-- R208: a cell slot is the cell, its check and padding. -/
theorem cellWire_eq (h40 : c.payload.length ≤ 40) :
    cellWire c = cellBytes c ++ halfBytes (crc (cellBytes c)) ++ List.replicate (40 - c.payload.length) 0 := by
  have size : (cellBytes c ++ halfBytes (crc (cellBytes c))).length = 7 + c.payload.length := by
    simp [cellBytes, halfBytes, b16]
    omega
  rw [cellWire, List.take_append, List.take_of_length_le (by omega), size, List.take_replicate]
  congr 2
  omega

theorem cellWire_length (h40 : c.payload.length ≤ 40) : (cellWire c).length = 47 := by
  rw [cellWire_eq c h40]
  simp [cellBytes, halfBytes, b16]
  omega

end

/-! ### Table entries (R128, R129, R151, R157, R213) -/

theorem readKeyMap_keyMapBytes (k : KeyMap) : readKeyMap (keyMapBytes k) = some k := by
  have point : readPointOpt (halfAt (keyMapBytes k) 3) = some k.point := by
    rw [keyMapBytes, List.append_assoc]
    exact readPointOpt_pointBytes k.point [b8 k.prio.val]
  have prio : byteAt (keyMapBytes k) 5 = b8 k.prio.val := by
    cases hp : k.point <;> simp [keyMapBytes, pointBytes, b16, hp]
  have listen : byteAt (keyMapBytes k) 1 = b8 k.listen.val := rfl
  have slot : byteAt (keyMapBytes k) 2 = b8 k.slot.val := rfl
  rw [readKeyMap, point, prio, listen, slot, asFin_b8 (by decide), asFin_b8 (by decide), asFin_b8 (by decide)]
  rfl

theorem readGpi_gpiBytes (g : GpiEntry) (h : g.debounce ≤ 15) : readGpi (gpiBytes g) = some g := by
  have debounce : (b8 g.debounce).toNat = g.debounce := b8_toNat_of_lt (by omega)
  have small : ¬15 < g.debounce := by omega
  simp [readGpi, gpiBytes, debounce, small]

/-- R129: the bounds within which a key function is taken. -/
def KeyFnLawful : KeyFn → Prop
  | .talkTally _ cap => 1 ≤ cap ∧ cap ≤ 4
  | .call _ d => 1 ≤ d ∧ d ≤ 255
  | .route node _ _ => 1 ≤ node.toNat ∧ node.toNat ≤ 62
  | _ => True

theorem keyFnBytes_length (f : KeyFn) : (keyFnBytes f).length = 5 := by
  cases f <;> simp [keyFnBytes, b16, sourceBytes_length]

theorem readKeyFn_keyFnBytes {f : KeyFn} (h : KeyFnLawful f) (rest : List Byte) :
    readKeyFn (keyFnBytes f ++ rest) = some f := by
  cases f with
  | none => rfl
  | talkPoint p => simp [readKeyFn, keyFnBytes, b16, asFin_b16]
  | talkConf c => simp [readKeyFn, keyFnBytes, b16, asFin_b16]
  | talkTally b cap =>
    obtain ⟨h1, h4⟩ := h
    have cap' : (b8 cap).toNat = cap := b8_toNat_of_lt (by omega)
    simp [readKeyFn, keyFnBytes, asFin_b8, cap', h1, h4]
  | listenConf c => simp [readKeyFn, keyFnBytes, b16, asFin_b16]
  | call p d =>
    obtain ⟨h1, h255⟩ := h
    have d' : (b8 d).toNat = d := b8_toNat_of_lt (by omega)
    have some' : ¬b8 d = 0#8 := fun h0 => by
      rw [h0, BitVec.toNat_ofNat] at d'
      omega
    simp [readKeyFn, keyFnBytes, b16, asFin_b16, d', some']
  | route node d x =>
    have sound := (sourceOk_iff node).2 h
    have read := readSource_sourceBytes x rest
    simp [readKeyFn, keyFnBytes, asFin_b8, sound, read]

theorem readKeyEntry_keyEntryBytes {e : KeyEntry} (h : KeyFnLawful e.fn) (hd : e.debounce ≤ 15) :
    readKeyEntry (keyEntryBytes e) = some e := by
  have fn := readKeyFn_keyFnBytes h
    [keyModeCode e.mode, flagByte e.invert, b8 e.debounce, keyReportCode e.report, colourCode e.colour]
  have field : ∀ i, byteAt (keyEntryBytes e) (5 + i) =
      byteAt [keyModeCode e.mode, flagByte e.invert, b8 e.debounce, keyReportCode e.report, colourCode e.colour] i :=
    fun i => by rw [keyEntryBytes, ← keyFnBytes_length e.fn, byteAt_append]
  have debounce : (b8 e.debounce).toNat = e.debounce := b8_toNat_of_lt (by omega)
  have small : ¬15 < e.debounce := by omega
  have mode : [KeyMode.momentary, .latching, .auto][(keyModeCode e.mode).toNat]? = some e.mode := by
    cases e.mode <;> rfl
  have report : [KeyReport.none, .press, .release, .both][(keyReportCode e.report).toNat]? = some e.report := by
    cases e.report <;> rfl
  have colour : [Colour.red, .green, .amber][(colourCode e.colour).toNat]? = some e.colour := by
    cases e.colour <;> rfl
  rw [← keyEntryBytes] at fn
  have f5 := field 0
  have f6 := field 1
  have f7 := field 2
  have f8 := field 3
  have f9 := field 4
  simp only [Nat.reduceAdd, byteAt_zero, byteAt_succ] at f5 f6 f7 f8 f9
  simp [readKeyEntry, fn, f5, f6, f7, f8, f9, mode, report, colour, debounce, small]

/-- R157: the bounds within which a term's drive is taken as it stands. -/
def DriveLawful : Drive → Prop
  | .steady => True
  | .dim n => 1 ≤ n ∧ n ≤ 15
  | .flash a b => a ≤ 32 ∧ b ≤ 32
  | _ => False

theorem termBytes_length (x : Term) : (termBytes x).length = 5 := by
  cases hd : x.drive <;> simp [termBytes, hd]

theorem readTerm_termBytes {x : Term} (h : DriveLawful x.drive) (rest : List Byte) :
    readTerm (termBytes x ++ rest) = some x := by
  obtain ⟨bus, source, drive, air⟩ := x
  cases drive with
  | steady => cases air <;> simp [readTerm, termBytes, asFin_b8]
  | dim n =>
    obtain ⟨h1, h15⟩ := h
    have n' : (b8 n).toNat = n := b8_toNat_of_lt (by omega)
    have clamp : max 1 (min n 15) = n := by omega
    cases air <;> simp [readTerm, termBytes, asFin_b8, n', clamp]
  | flash a b =>
    obtain ⟨ha, hb⟩ := h
    have a' : (b8 a).toNat = a := b8_toNat_of_lt (by omega)
    have b' : (b8 b).toNat = b := b8_toNat_of_lt (by omega)
    have clampA : min a 32 = a := by omega
    have clampB : min b 32 = b := by omega
    cases air <;> simp [readTerm, termBytes, asFin_b8, a', b', clampA, clampB]
  | _ => exact h.elim

theorem tallyBytes_length (r : TallyRec) : (tallyBytes r).length = 23 := by
  have term : ∀ k : Nat, (((r.terms[k]?).map termBytes).getD [0, 0, 0, 0, 0]).length = 5 := fun k => by
    cases (r.terms[k]? : Option Term) <;> simp [termBytes_length]
  simp only [tallyBytes, List.length_append, List.length_flatMap, pointBytes_length, term]
  rfl

/-- The `k`-th of a row of runs of five bytes stands at offset `5 * k`. -/
theorem drop_runs {α : Type} {f : α → List Byte} (five : ∀ x, (f x).length = 5) {l : List α} {k : Nat} {x : α}
    (pad : List Byte) (hx : l[k]? = some x) : ∃ rest, (l.flatMap f ++ pad).drop (5 * k) = f x ++ rest := by
  induction l generalizing k with
  | nil => cases hx
  | cons y l ih =>
    rw [List.flatMap_cons, List.append_assoc]
    cases k with
    | zero =>
      obtain rfl : y = x := Option.some.inj hx
      exact ⟨_, rfl⟩
    | succ k =>
      obtain ⟨rest, hrest⟩ := ih hx
      refine ⟨rest, ?_⟩
      rw [Nat.mul_succ, Nat.add_comm, ← five y, ← List.drop_drop, List.drop_left, five y, hrest]

theorem mapM_range {α : Type} {f : Nat → Option α} {l : List α} (h : ∀ k x, l[k]? = some x → f k = some x) :
    (List.range l.length).mapM f = some l := by
  induction l generalizing f with
  | nil => rfl
  | cons x l ih =>
    have first := h 0 x rfl
    have later := ih (f := fun k => f (k + 1)) fun k y hy => h (k + 1) y hy
    rw [List.length_cons, List.range_succ_eq_map, List.mapM_cons, List.mapM_map, first,
      show f ∘ Nat.succ = fun k => f (k + 1) from rfl, later]
    rfl

theorem readTallyRec_tallyBytes {r : TallyRec} (h4 : r.terms.length ≤ 4) (lawful : ∀ x ∈ r.terms, DriveLawful x.drive) :
    readTallyRec (tallyBytes r) = some r := by
  have count : (byteAt (tallyBytes r) 0).toNat = r.terms.length := b8_toNat_of_lt (by omega)
  have point : readPointOpt (halfAt (tallyBytes r) 1) = some r.callPoint := by
    rw [tallyBytes, List.append_assoc]
    exact readPointOpt_pointBytes ..
  have terms : (List.range r.terms.length).mapM (fun k => readTerm ((tallyBytes r).drop (3 + 5 * k))) = some r.terms := by
    refine mapM_range fun k x hx => ?_
    have inRange : k < r.terms.length := (List.getElem?_eq_some_iff.1 hx).1
    obtain ⟨rest, hrest⟩ := drop_runs (f := fun k => ((r.terms[k]?).map termBytes).getD [0, 0, 0, 0, 0])
      (fun k => by cases r.terms[k]? <;> simp [termBytes_length]) [] (List.getElem?_range (show k < 4 by omega))
    have header : ([b8 r.terms.length] ++ pointBytes r.callPoint).length = 3 := by simp [pointBytes_length]
    rw [List.append_nil] at hrest
    rw [tallyBytes, ← List.drop_drop, ← header, List.drop_left, hrest, hx]
    exact readTerm_termBytes (lawful x (List.mem_of_getElem? hx)) rest
  have few : ¬4 < r.terms.length := by omega
  simp [readTallyRec, count, point, terms, few]

/-! ### Panel messages (R214) -/

theorem readScan_bytes (id no knob : Byte) (pressed : BitVec 32) (hid : id ≠ 0) :
    let body := [0x3C, id, no] ++ bitmap 4 pressed.toNat ++ [knob]
    readScan (body ++ halfBytes (crc body)) = some { panelId := id, scanNo := no, pressed := pressed.toNat, knob := knob } := by
  intro body
  have size : body.length = 8 := by simp [body, bitmap_length]
  have whole : (body ++ halfBytes (crc body)).length = 10 := by simp [size, halfBytes, b16]
  have covered : (body ++ halfBytes (crc body)).take 8 = body := by rw [← size, List.take_left]
  have check : halfAt (body ++ halfBytes (crc body)) 8 = crc body := by
    rw [← size, halfAt_append]
    exact half_halfBytes (crc body)
  have set : ((body ++ halfBytes (crc body)).drop 3).take 4 = bitmap 4 pressed.toNat := by
    simp only [body, List.cons_append, List.nil_append, List.append_assoc, List.drop_succ_cons, List.drop_zero]
    exact List.take_left' (bitmap_length 4 pressed.toNat)
  have pressed' : ofBitmap (bitmap 4 pressed.toNat) = pressed.toNat := by
    rw [ofBitmap_bitmap]
    exact Nat.mod_eq_of_lt pressed.isLt
  have kind : byteAt (body ++ halfBytes (crc body)) 0 = 0x3C := rfl
  have panel : byteAt (body ++ halfBytes (crc body)) 1 = id := rfl
  have number : byteAt (body ++ halfBytes (crc body)) 2 = no := rfl
  have turned : byteAt (body ++ halfBytes (crc body)) 7 = knob := rfl
  have bound : ¬id = 0#8 := hid
  simp [readScan, whole, covered, check, set, pressed', kind, panel, number, turned, bound]

/-- Settles O16: the header's bits, the check byte by byte, and each reader on what its writer gives. -/
theorem encodingsRoundTrip : Obligations.EncodingsRoundTrip := by
  refine ⟨⟨rfl, crc_append⟩, fun f => ⟨headerGood_iff f, beq_iff_eq, originator_toNat f, headPassed_iff f, bit7_iff f.orig,
      fun marked => if_pos ((bit7_iff _).2 marked), fun unmarked => if_neg fun h => ?_⟩,
    fun x => ⟨rfl, rfl⟩, fun c check rest h40 hl => readCell_bytes c check rest h40 hl,
    fun c h40 hl => ⟨?_, cellWire_length c h40⟩,
    fun x => ⟨?_, sourceBytes_length x⟩, fun k => ⟨readKeyMap_keyMapBytes k, ?_⟩, fun g hd => ⟨readGpi_gpiBytes g hd, rfl⟩,
    fun e hd lawful => ⟨readKeyEntry_keyEntryBytes ?_ hd, ?_⟩,
    fun r h4 lawful => ⟨readTallyRec_tallyBytes h4 ?_, tallyBytes_length r⟩,
    readScan_bytes⟩
  · exact absurd ((bit7_iff _).1 h) (by omega)
  · rw [cellWire_eq c h40, readCell_bytes c _ _ h40 hl, decide_eq_true rfl]
  · simpa using readSource_sourceBytes x []
  · simp [keyMapBytes, pointBytes_length, entrySize]
  · cases hf : e.fn <;> simp_all [KeyFnLawful]
  · simp [keyEntryBytes, keyFnBytes_length, entrySize]
  · intro x hx
    have := lawful x hx
    cases hd : x.drive <;> simp_all [DriveLawful]

end Sys2Proof.Machine
end

section
/-! SUPPORT. The commands of received cells and requests as the cells of their layout (O17). -/

namespace Sys2Proof.Machine

open Sys2Proof

/-! ### Messages read as laid out (R209) -/

theorem readTalkOn_bytes (m : TalkOnMsg) :
    readTalkOn ([m.kind] ++ halfBytes m.id ++ [m.origin] ++ halfBytes m.point ++ [m.slot, m.prio]) = m := by
  simp [readTalkOn, halfBytes, b16]

theorem readTalkOff_bytes (m : TalkOffMsg) : readTalkOff ([m.kind] ++ halfBytes m.id ++ [m.origin]) = m := by
  simp [readTalkOff, halfBytes, b16]

theorem readTalkReply_bytes (m : TalkReplyMsg) :
    readTalkReply ([m.kind] ++ halfBytes m.id ++ [m.origin, m.outcome]) = m := by
  simp [readTalkReply, halfBytes, b16]

theorem readConfOn_bytes (m : ConfOnMsg) :
    readConfOn ([m.conf, m.node, m.origin] ++ halfBytes m.point ++ [m.slot, m.prio, m.lease]) = m := by
  simp [readConfOn, halfBytes, b16]

theorem readCall_bytes (m : CallMsg) : readCall (halfBytes m.target ++ halfBytes m.caller ++ [m.duration]) = m := by
  simp [readCall, halfBytes, b16]

theorem readCancel_bytes (m : CancelMsg) : readCancel (halfBytes m.target ++ halfBytes m.caller) = m := by
  simp [readCancel, halfBytes, b16]

theorem readTallySet_bytes (m : TallySetMsg) :
    readTallySet ([m.bus, m.mode, m.epoch] ++ bitmap 32 m.set.toNat) = m := by
  have set : BitVec.ofNat 256 (ofBitmap (bitmap 32 m.set.toNat)) = m.set := by
    rw [ofBitmap_bitmap, show 256 ^ 32 = 2 ^ 256 from rfl, Nat.mod_eq_of_lt m.set.isLt, BitVec.ofNat_toNat, BitVec.setWidth_eq]
  have whole : (bitmap 32 m.set.toNat).take 32 = bitmap 32 m.set.toNat :=
    List.take_of_length_le (bitmap_length ..).le
  simp [readTallySet, whole, set]

/-! ### Requests read as laid out (R211) -/

theorem readRequest_query (table : Byte) (start count : Half) :
    readRequest ([0, table] ++ halfBytes start ++ halfBytes count) = .query table start count :=
  congrArg₂ (Request.query table) (half_halfBytes start) (half_halfBytes count)

theorem readRequest_loadOpen (table : Byte) (start count : Half) :
    readRequest ([2, table] ++ halfBytes start ++ halfBytes count) = .loadOpen table start count :=
  congrArg₂ (Request.loadOpen table) (half_halfBytes start) (half_halfBytes count)

theorem readRequest_set (table : Byte) (index : Half) (entry : List Byte) :
    readRequest ([1, table] ++ halfBytes index ++ entry) = .set table index entry := by
  have long : 4 ≤ ([1, table] ++ halfBytes index ++ entry).length := by simp [halfBytes, b16]
  have read : readRequest ([1, table] ++ halfBytes index ++ entry) =
      if 4 ≤ ([1, table] ++ halfBytes index ++ entry).length then
        .set table (half (b8 (index.toNat / 256)) (b8 index.toNat)) entry
      else .short 1 := rfl
  rw [read, if_pos long, half_halfBytes]

theorem readRequest_loadData (seg : Byte) (data : List Byte) : readRequest ([3, seg] ++ data) = .loadData seg data := by
  have long : 2 ≤ ([3, seg] ++ data).length := by simp
  have read : readRequest ([3, seg] ++ data) =
      if 2 ≤ ([3, seg] ++ data).length then .loadData seg data else .short 3 := rfl
  rw [read, if_pos long]

theorem readPairs_bytes (pairs : List (Byte × Half)) : readPairs (pairs.flatMap fun p => p.1 :: halfBytes p.2) = pairs := by
  induction pairs with
  | nil => rfl
  | cons p pairs ih => exact congrArg₂ List.cons (congrArg (Prod.mk p.1) (half_halfBytes p.2)) ih

theorem readRequest_take (m : TakeMsg) :
    readRequest ([4, m.mode, m.epoch, m.count] ++ m.pairs.flatMap fun p => p.1 :: halfBytes p.2) = .take m := by
  have long : ∀ rest : List Byte, 4 ≤ ([4, m.mode, m.epoch, m.count] ++ rest).length := by simp
  have read : ∀ rest : List Byte, readRequest ([4, m.mode, m.epoch, m.count] ++ rest) =
      if 4 ≤ ([4, m.mode, m.epoch, m.count] ++ rest).length then .take { m with pairs := readPairs rest }
      else .short 4 := fun _ => rfl
  rw [read, if_pos (long _), readPairs_bytes]

theorem readRequest_flags {n : Nat} (h : n < 2 ^ 24) : readRequest (9 :: bitmap 3 n) = .clear n :=
  congrArg Request.clear (ofBitmap_bitmap_three h)

theorem readRequest_unknown {kind : Byte} (h : 14 ≤ kind.toNat) : readRequest [kind] = .unknown kind := by
  unfold readRequest
  dsimp only [byteAt_zero]
  split <;> first | omega | rfl

/-! ### Cells handed to the Cell Engine (R41, R44) -/

section
variable {src tag : Byte} {s : State}

theorem lengthOk_request (n : Nat) : lengthOk .request n = true ↔ 1 ≤ n ∧ n ≤ 40 := by simp [lengthOk]

theorem lengthOk_reply (n : Nat) : lengthOk .reply n = true ↔ 2 ≤ n ∧ n ≤ 40 := by simp [lengthOk]

/-- R44: a command that hands over a cell does what its cell does. -/
theorem act_received {k : CellKind} {dest : Byte} {p : List Byte} {f : State → State} (h : Reaches s src)
    (hl : lengthOk k (b8 p.length).toNat = true) (hd : destOk k dest s.trunk.addr = true)
    (same : handCell k { kind := kindCode k, dest := dest, src := src, tag := tag, len := b8 p.length, payload := p } s = f s) :
    act (fromCell src f) s =
      .next (receiveCell { kind := kindCode k, dest := dest, src := src, tag := tag, len := b8 p.length, payload := p } s) := by
  rw [act_fromCell h, receiveCell_formed rfl h.2.1 hl, if_pos hd, same]

theorem request_received {r : Request} {p : List Byte} (h : Reaches s src) (hl : lengthOk .request p.length = true)
    (hr : readRequest p = r) : request src tag r s = .next (receiveCell
      { kind := 8, dest := s.trunk.addr, src := src, tag := tag, len := b8 p.length, payload := p } s) := by
  have bounds := (lengthOk_request p.length).1 hl
  have size : (b8 p.length).toNat = p.length := b8_toNat_of_lt (by omega)
  rw [request, act_fromCell h, receiveCell_request h.2.1 (by omega) (by omega), hr]

end

/-- Settles O17: the message of a cell is read as laid out (`readTalkOn_bytes` and so on), the request as its kind says
(`readRequest_query` and so on), and the cell passes the tests (`act_received`, `request_received`). -/
theorem cellCommandsAreCells : Obligations.CellCommandsAreCells := by
  intro s src tag h at63 atNode asks
  have mine : (s.trunk.addr == s.trunk.addr) = true := beq_self_eq_true _
  have param : ∀ (k : Byte) (i : Nat) (v : Half), half 0 k = BitVec.ofNat 16 i →
      setParam i src tag v s = .next (receiveCell (atNode 8 ([1, 11, 0, k] ++ halfBytes v)) s) := fun k i v index =>
    request_received h rfl (congrArg (Request.set 11 · (halfBytes v)) index)
  refine ⟨fun m => act_received (k := .talkOn) h rfl rfl (congrArg (takeTalkOn src tag · s) (readTalkOn_bytes m)),
    fun m => act_received (k := .talkOff) h rfl rfl (congrArg (takeTalkOff src · s) (readTalkOff_bytes m)),
    fun m => act_received (k := .talkReply) h rfl mine (congrArg (takeTalkReply · s) (readTalkReply_bytes m)),
    fun m => act_received (k := .confOn) h rfl rfl (congrArg (takeConfOn · s) (readConfOn_bytes m)),
    fun m => act_received (k := .confOff) h rfl rfl rfl,
    fun m => act_received (k := .call) h rfl rfl (congrArg (takeCall · s) (readCall_bytes m)),
    fun m => act_received (k := .callCancel) h rfl rfl (congrArg (takeCancel · s) (readCancel_bytes m)),
    fun m => act_received (k := .tallySet) h rfl rfl (congrArg (takeTallySet src · s) (readTallySet_bytes m)),
    fun m short => act_received (k := .reply) h ?_ mine rfl,
    fun t i e short => request_received h ((lengthOk_request _).2 ?_) (readRequest_set ..), fun w hw i e => ?_,
    fun v => ⟨param 0 0 v rfl, param 1 1 v rfl, param 2 2 v rfl, param 3 3 v rfl, param 4 4 v rfl, param 5 5 v rfl⟩,
    fun table start count => ⟨request_received h rfl (readRequest_query ..),
      request_received h rfl (readRequest_loadOpen ..)⟩,
    fun seg data short => request_received h ((lengthOk_request _).2 ?_) (readRequest_loadData ..),
    fun m short => request_received h ((lengthOk_request _).2 ?_) (readRequest_take m),
    fun dest mode => ⟨request_received h rfl rfl, request_received h rfl rfl,
      request_received h rfl rfl⟩,
    request_received h rfl rfl,
    fun k => request_received h rfl (readRequest_flags ?_),
    request_received h rfl rfl, request_received h rfl rfl,
    request_received h rfl rfl, request_received h rfl rfl,
    request_received h rfl rfl, request_received h rfl rfl,
    request_received h rfl rfl,
    fun page => request_received h rfl rfl, request_received h rfl rfl,
    request_received h rfl rfl, request_received h rfl rfl,
    fun kind unknown => request_received h rfl (readRequest_unknown unknown)⟩
  · have size : (b8 ([m.kind, m.code] ++ m.fields).length).toNat = m.fields.length + 2 :=
      b8_toNat_of_lt (by simp; omega)
    rw [size, lengthOk_reply]
    omega
  · simp [halfBytes, b16]
    omega
  · simp only [List.mem_cons, List.not_mem_nil, or_false] at hw
    rcases hw with rfl | rfl | rfl | rfl | rfl | rfl | rfl | rfl | rfl | rfl | rfl <;> rfl
  · simp
    omega
  · have size : (m.pairs.flatMap fun p => p.1 :: halfBytes p.2).length = 3 * m.pairs.length := by
      simp [List.length_flatMap, halfBytes, b16, Nat.mul_comm]
    simp only [List.length_append, size, List.length_cons, List.length_nil]
    omega
  · exact Nat.pow_lt_pow_right (by decide) (by omega)

end Sys2Proof.Machine
end

section
/-! SUPPORT. Entries that SET writes or refuses: schedule, mix and tally map, and what each reader refuses (O53). -/

namespace Sys2Proof.Machine

open Sys2Proof

/-! ### A SET that nothing stands against (R195, R200) -/

theorem tableOf_tableCode (t : Table) : tableOf (tableCode t) = some t := by cases t <;> rfl

section
variable {t : Table} {src tag : Byte} {i : Half} {e : List Byte} {s : State}

theorem serveSet_writable (w : Writable t src s) :
    serveSet src (tableCode t) i e s = ((writeEntry t i.toNat e s).1, plain (writeEntry t i.toNat e s).2) := by
  obtain ⟨unlocked, free⟩ := w
  have shown : showLocked s t = false := by
    rcases unlocked with h | rfl
    · simp [showLocked, h]
    · simp [showLocked]
  have loaded : loadedByOther s.mgmt.load t src = false := by
    cases hl : s.mgmt.load with
    | closed r => rfl
    | opened r =>
      by_cases ht : r.table = t
      · simp [loadedByOther, free r hl ht]
      · simp [loadedByOther, ht]
  simp only [serveSet, tableOf_tableCode, shown, loaded, Bool.false_eq_true, if_false]

/-- R195: the entry is judged by its table's rules, and the reply carries the code. -/
theorem setEntry_written {u : State} {c : Code} (h : Fresh s src tag 1) (w : Writable t src s)
    (hw : writeEntry t i.toNat e s = (u, c)) : setEntry t src tag i e s = .next (replied src tag 1 c [] u) := by
  have served := request_fresh (r := .set (tableCode t) i e) h rfl
  have given : serve src (.set (tableCode t) i e) s = (u, plain c) := (serveSet_writable w).trans (by rw [hw])
  rw [given] at served
  exact served

end

/-! ### Indexes and optional fields out of range (R207) -/

theorem asFin_of_lt {n k : Nat} (h : k < n) : asFin n k = some ⟨k, h⟩ := dif_pos h

theorem asFin_none {n k : Nat} (h : n ≤ k) : asFin n k = none := dif_neg (Nat.not_lt.2 h)

theorem asFin_some {n k : Nat} {i : Fin n} (h : asFin n k = some i) : i.val = k := by
  unfold asFin at h
  split at h
  · exact congrArg Fin.val (Option.some.inj h).symm
  · cases h

theorem readPointOpt_none {p : Half} (h : 1024 ≤ p.toNat ∧ p ≠ 0xFFFF) : readPointOpt p = none := by
  rw [readPointOpt, if_neg h.2, asFin_none h.1]
  rfl

theorem readSlotOpt_none {b : Byte} (h : 128 ≤ b.toNat ∧ b ≠ 0xFF) : readSlotOpt b = none := by
  rw [readSlotOpt, if_neg h.2, asFin_none h.1]
  rfl

theorem readSlotOpt_optByte (x : Option SlotId) : readSlotOpt (optByte x) = some x := by
  cases x with
  | none => rfl
  | some n =>
    have present : b8 n.val ≠ 0xFF := fun absent => by
      have value := (b8_toNat_of_lt (n := n.val) (by omega)).symm.trans (congrArg BitVec.toNat absent)
      have limit : (0xFF : Byte).toNat = 255 := rfl
      omega
    exact (if_neg present).trans (congrArg (Option.map some) (asFin_b8 (by decide) n))

theorem readFlag_none {b : Byte} (h : 2 ≤ b.toNat) : readFlag b = none := by
  have not0 : b ≠ 0 := fun h0 => by subst h0; exact absurd h (by decide)
  have not1 : b ≠ 1 := fun h1 => by subst h1; exact absurd h (by decide)
  rw [readFlag, if_neg not0, if_neg not1]

/-- R59, R207: what is read as a source is that source's two bytes. -/
theorem readSource_some {x : Half} {y : Source} (h : readSource x = some y) : x = halfAt (sourceBytes y) 0 := by
  have bytes : ∀ hi lo : Byte, x.toNat / 256 = hi.toNat → x.toNat % 256 = lo.toNat → x = half hi lo := fun hi lo h1 h2 =>
    BitVec.eq_of_toNat_eq (by rw [half_toNat]; omega)
  unfold readSource at h
  dsimp only at h
  split at h
  · next hi =>
    split at h
    · next lo =>
      cases h
      exact bytes 0 0 hi lo
    · cases h
  · split at h
    · next hi =>
      obtain ⟨n, hn, rfl⟩ := Option.map_eq_some_iff.1 h
      exact bytes 1 (b8 n.val) hi ((asFin_some hn).symm.trans (b8_toNat_of_lt (by omega)).symm)
    · split at h
      · next hi =>
        obtain ⟨n, hn, rfl⟩ := Option.map_eq_some_iff.1 h
        exact bytes 2 (b8 n.val) hi ((asFin_some hn).symm.trans (b8_toNat_of_lt (by omega)).symm)
      · split at h
        · next hi =>
          obtain ⟨n, hn, rfl⟩ := Option.map_eq_some_iff.1 h
          exact bytes 3 (b8 n.val) hi ((asFin_some hn).symm.trans (b8_toNat_of_lt (by omega)).symm)
        · cases h

theorem readSource_none {x : Half} (h : ∀ y : Source, x ≠ halfAt (sourceBytes y) 0) : readSource x = none :=
  Option.eq_none_iff_forall_ne_some.2 fun y hy => h y (readSource_some hy)

theorem readSourceOpt_none {x : Half} (h : x ≠ 0xFFFF ∧ ∀ y : Source, x ≠ halfAt (sourceBytes y) 0) :
    readSourceOpt x = none := by
  rw [readSourceOpt, if_neg h.1, readSource_none h.2]
  rfl

/-- A point or its absence is two bytes that read back. -/
theorem pointBytes_pair (p : Option PointId) : ∃ a b, pointBytes p = [a, b] ∧ readPointOpt (half a b) = some p := by
  have read := readPointOpt_pointBytes p []
  cases p <;> exact ⟨_, _, rfl, read⟩

theorem sourceOptBytes_pair (x : Option Source) : ∃ a b, sourceOptBytes x = [a, b] ∧ readSourceOpt (half a b) = some x := by
  cases x with
  | none =>
    have absent : half 0xFF 0xFF = 0xFFFF := by decide
    exact ⟨_, _, rfl, if_pos absent⟩
  | some x =>
    have pair : ∃ a b, sourceBytes x = [a, b] ∧ a.toNat ≤ 3 := by cases x <;> exact ⟨_, _, rfl, by decide⟩
    obtain ⟨a, b, hx, ha⟩ := pair
    have read := readSource_sourceBytes x []
    rw [hx] at read
    have present : half a b ≠ 0xFFFF := fun absent => by
      have high := (half_high a b).symm.trans (congrArg (fun h : Half => h.toNat / 256) absent)
      have limit : (0xFFFF : Half).toNat / 256 = 255 := by decide
      omega
    exact ⟨a, b, hx, (if_neg present).trans (congrArg (Option.map some) read)⟩

/-! ### Lists read item by item -/

theorem mapM_none {α β : Type} {f : α → Option β} {l : List α} {x : α} (hx : x ∈ l) (h : f x = none) : l.mapM f = none := by
  induction l with
  | nil => cases hx
  | cons y l ih =>
    rcases List.mem_cons.1 hx with rfl | hx
    · simp [List.mapM_cons, h]
    · simp [List.mapM_cons, ih hx]

theorem mapM_asFin {n : Nat} {bs : List Byte} {l : List (Fin n)} (h : bs.mapM (fun b => asFin n b.toNat) = some l) :
    bs.map BitVec.toNat = l.map Fin.val := by
  induction bs generalizing l with
  | nil => cases h; rfl
  | cons b bs ih =>
    rw [List.mapM_cons] at h
    obtain ⟨i, hi, h⟩ := Option.bind_eq_some_iff.1 h
    obtain ⟨l', hl, h⟩ := Option.bind_eq_some_iff.1 h
    cases h
    rw [List.map_cons, List.map_cons, asFin_some hi, ih hl]

theorem mapM_asFin_bytes {n : Nat} (hn : n ≤ 256) (l : List (Fin n)) :
    (l.map fun i => b8 i.val).mapM (fun b => asFin n b.toNat) = some l := by
  induction l with
  | nil => rfl
  | cons i l ih =>
    rw [List.map_cons, List.mapM_cons, asFin_b8 hn, ih]
    rfl

theorem byteAt_drop (bs : List Byte) (n i : Nat) : byteAt (bs.drop n) i = byteAt bs (n + i) := by
  simp [byteAt, List.getD_eq_getElem?_getD]

/-! ### The slot schedule (R53) -/

theorem readClass_classCode (k : CellClass) : readClass (classCode k) = some k := by cases k <;> rfl

theorem readClass_none {b : Byte} (h : 4 ≤ b.toNat) : readClass b = none := List.getElem?_eq_none h

section
variable {i : Nat} {s : State}

theorem writeSched_length {n : Nat} (h1 : 1 ≤ n) (h32 : n ≤ 32) : writeSched 0 [b8 n] s =
    ({ s with cells := { s.cells with schedLen := n, cwIndex := 0, ccwIndex := 0 } }, .ok) := by
  have size : (b8 n).toNat = n := b8_toNat_of_lt (by omega)
  have lawful : ¬(decide (n = 0) || decide (32 < n)) = true := by
    simp only [Bool.or_eq_true, decide_eq_true_eq]
    omega
  rw [writeSched, if_pos rfl, byteAt_zero, size, writeSchedLength, if_neg lawful]
  rfl

theorem writeSched_class (n : Fin 32) (k : CellClass) : writeSched (n.val + 1) [classCode k] s =
    ({ s with cells := { s.cells with sched := s.cells.sched.set n k, cwIndex := 0, ccwIndex := 0 } }, .ok) := by
  rw [writeSched, if_neg (Nat.succ_ne_zero _), Nat.add_sub_cancel, asFin_val]
  simp only [byteAt_zero, writeSchedClass, readClass_classCode]
  rfl

theorem writeSched_refused {x : Byte} (h : (i = 0 ∧ (x = 0 ∨ 33 ≤ x.toNat)) ∨ (1 ≤ i ∧ i ≤ 32 ∧ 4 ≤ x.toNat)) :
    writeSched i [x] s = (s, .invalid) := by
  rcases h with ⟨rfl, h⟩ | ⟨h1, h32, h⟩
  · have unlawful : (decide (x.toNat = 0) || decide (32 < x.toNat)) = true := by
      rcases h with rfl | h
      · rfl
      · rw [Bool.or_eq_true, decide_eq_true_eq, decide_eq_true_eq]
        omega
    exact if_pos unlawful
  · rw [writeSched, if_neg (by omega), asFin_of_lt (by omega)]
    simp only [byteAt_zero, writeSchedClass, readClass_none h]

end

/-! ### The mix outputs (R80, R105, R106) -/

theorem readSubs_none {e : List Byte} (long : 25 ≤ e.length)
    (h : 5 ≤ (byteAt e 4).toNat ∨ (∃ k < (byteAt e 4).toNat, 64 ≤ (byteAt e (5 + k)).toNat) ∨
      ∃ k < (byteAt e 4).toNat, ∃ j < k, byteAt e (5 + j) = byteAt e (5 + k)) : readSubs e = none := by
  unfold readSubs
  dsimp only
  split
  · rfl
  next few =>
    have taken : ∀ k < (byteAt e 4).toNat, ((e.drop 5).take (byteAt e 4).toNat)[k]? = some (byteAt e (5 + k)) := fun k hk => by
      have inside : 5 + k < e.length := by omega
      rw [List.getElem?_take_of_lt hk, List.getElem?_drop, byteAt, List.getD_eq_getElem?_getD, List.getElem?_eq_getElem inside]
      rfl
    rcases h with h | ⟨k, hk, h⟩ | ⟨k, hk, j, hj, h⟩
    · omega
    · rw [mapM_none (List.mem_of_getElem? (taken k hk)) (asFin_none h)]
    · split
      · rfl
      next l hl =>
        refine if_neg fun distinct => ?_
        have ids := mapM_asFin hl
        have at_j : (l.map Fin.val)[j]? = some (byteAt e (5 + j)).toNat := by
          rw [← ids, List.getElem?_map, taken j (by omega), Option.map_some]
        have at_k : (l.map Fin.val)[k]? = some (byteAt e (5 + k)).toNat := by
          rw [← ids, List.getElem?_map, taken k hk, Option.map_some]
        have inside : j < (l.map Fin.val).length := (List.getElem?_eq_some_iff.1 at_j).1
        have same := (List.getElem?_inj inside (distinct.map Fin.val_injective)).1 (at_j.trans (h ▸ at_k.symm))
        omega

theorem readMix_none {old : MixRec} {e : List Byte} (h : 2 ≤ (byteAt e 0).toNat ∨ readPointOpt (halfAt e 1) = none ∨
    readSlotOpt (byteAt e 3) = none ∨ readSubs e = none ∨ readSourceOpt (halfAt e 13) = none ∨ 4 < (byteAt e 21).toNat) :
    readMix old e = none := by
  rcases h with h | h | h | h | h | h
  · have not0 : ¬byteAt e 0 = 0#8 := fun h0 => absurd (h0 ▸ h) (by decide)
    have not1 : ¬byteAt e 0 = 1#8 := fun h1 => absurd (h1 ▸ h) (by decide)
    simp [readMix, not0, not1]
  all_goals simp [readMix, h]

/-- R105: what stands in the way of a MIX entry. -/
theorem readMix_refused {old : MixRec} {e : List Byte} (long : 25 ≤ e.length)
    (h : 2 ≤ (byteAt e 0).toNat ∨ (1024 ≤ (halfAt e 1).toNat ∧ halfAt e 1 ≠ 0xFFFF) ∨
      (128 ≤ (byteAt e 3).toNat ∧ byteAt e 3 ≠ 0xFF) ∨ 5 ≤ (byteAt e 4).toNat ∨
      (∃ k < (byteAt e 4).toNat, 64 ≤ (byteAt e (5 + k)).toNat) ∨
      (∃ k < (byteAt e 4).toNat, ∃ j < k, byteAt e (5 + j) = byteAt e (5 + k)) ∨
      (halfAt e 13 ≠ 0xFFFF ∧ ∀ y : Source, halfAt e 13 ≠ halfAt (sourceBytes y) 0) ∨ 5 ≤ (byteAt e 21).toNat) :
    readMix old e = none := by
  apply readMix_none
  rcases h with h | h | h | h | h | h | h | h
  · exact .inl h
  · exact .inr (.inl (readPointOpt_none h))
  · exact .inr (.inr (.inl (readSlotOpt_none h)))
  · exact .inr (.inr (.inr (.inl (readSubs_none long (.inl h)))))
  · exact .inr (.inr (.inr (.inl (readSubs_none long (.inr (.inl h))))))
  · exact .inr (.inr (.inr (.inl (readSubs_none long (.inr (.inr h))))))
  · exact .inr (.inr (.inr (.inr (.inl (readSourceOpt_none h)))))
  · exact .inr (.inr (.inr (.inr (.inr (by omega)))))

section
variable (ifb : Bool) (point : Option PointId) (own : Option SlotId) {subs : List ConfId} {pad last : List Byte}
  (talk listen full dim step : Half) (prog : Option Source) (threshold : Fin 5) {old : MixRec} {e : List Byte}
  (he : e = [if ifb then 1 else 0] ++ pointBytes point ++ [optByte own, b8 subs.length] ++ subs.map (fun c => b8 c.val) ++
    pad ++ halfBytes talk ++ halfBytes listen ++ sourceOptBytes prog ++ halfBytes full ++ halfBytes dim ++
    halfBytes step ++ [b8 threshold.val] ++ last)
include he

theorem readSubs_layout (few : subs.length ≤ 4) (distinct : subs.Nodup) : readSubs e = some subs := by
  obtain ⟨a, b, hp, -⟩ := pointBytes_pair point
  have count : (byteAt e 4).toNat = subs.length := by
    have byte : byteAt e 4 = b8 subs.length := by
      rw [he, hp]
      rfl
    rw [byte, b8_toNat_of_lt (by omega)]
  obtain ⟨rest, dropped⟩ : ∃ rest, e.drop 5 = subs.map (fun c => b8 c.val) ++ rest := by
    rw [he, hp]
    simp only [List.append_assoc, List.cons_append, List.nil_append, List.drop_succ_cons, List.drop_zero]
    exact ⟨_, rfl⟩
  have taken : (e.drop 5).take subs.length = subs.map fun c => b8 c.val := by
    rw [dropped, List.take_left' (List.length_map ..)]
  rw [readSubs, count, if_neg (by omega), taken, mapM_asFin_bytes (by decide)]
  exact if_pos distinct

/-- R105, R106: an entry laid out as R213 says is taken with its clamps. -/
theorem readMix_layout (few : subs.length ≤ 4) (distinct : subs.Nodup) (padded : pad.length + subs.length = 4) :
    readMix old e = some { old with
      ifb := ifb, point := point, own := own, subs := subs, talkGain := min talk.toNat 8191
      listen := min listen.toNat 8191, prog := prog, full := min full.toNat 4096
      dim := min (min dim.toNat 4096) (min full.toNat 4096), step := max 1 (min step.toNat 4096), threshold := threshold.val
      g := if ifb then max (min (min dim.toNat 4096) (min full.toNat 4096)) (min (min full.toNat 4096) old.g)
        else min full.toNat 4096 } := by
  have subs' := readSubs_layout ifb point own talk listen full dim step prog threshold he few distinct
  obtain ⟨a, b, hp, point'⟩ := pointBytes_pair point
  obtain ⟨c, d, hs, prog'⟩ := sourceOptBytes_pair prog
  obtain ⟨x0, x1, x2, x3, hx⟩ : ∃ x0 x1 x2 x3, subs.map (fun c => b8 c.val) ++ pad = [x0, x1, x2, x3] :=
    List.length_eq_four.1 (by simp; omega)
  have bytes : e = [if ifb then 1 else 0, a, b, optByte own, b8 subs.length, x0, x1, x2, x3] ++ (halfBytes talk ++
      halfBytes listen ++ [c, d] ++ halfBytes full ++ halfBytes dim ++ halfBytes step ++ [b8 threshold.val] ++ last) := by
    rw [he, hp, hs, List.append_assoc _ (subs.map _) pad, hx]
    simp only [List.append_assoc, List.cons_append, List.nil_append]
  have hp1 : halfAt e 1 = half a b := by rw [bytes]; rfl
  have ho : byteAt e 3 = optByte own := by rw [bytes]; rfl
  have hg : halfAt e 13 = half c d := by rw [bytes]; rfl
  have ht : (byteAt e 21).toNat = threshold.val := by
    have byte : byteAt e 21 = b8 threshold.val := by rw [bytes]; rfl
    rw [byte, b8_toNat_of_lt (by omega)]
  have h9 : halfAt e 9 = talk := by rw [bytes]; exact half_halfBytes talk
  have h11 : halfAt e 11 = listen := by rw [bytes]; exact half_halfBytes listen
  have h15 : halfAt e 15 = full := by rw [bytes]; exact half_halfBytes full
  have h17 : halfAt e 17 = dim := by rw [bytes]; exact half_halfBytes dim
  have h19 : halfAt e 19 = step := by rw [bytes]; exact half_halfBytes step
  have h0 : byteAt e 0 = if ifb then 1 else 0 := by rw [bytes]; rfl
  have small : ¬4 < threshold.val := by omega
  simp only [readMix, h0, hp1, point', ho, readSlotOpt_optByte, subs', hg, prog', ht, h9, h11, h15, h17, h19]
  cases ifb <;> exact if_neg small

end

section
variable {i : Nat} {m : MixId} {r : MixRec} {e : List Byte} {s : State}

theorem writeMix_refused (hi : i < 24) (h : ∀ old, readMix old e = none) : writeMix i e s = (s, .invalid) := by
  simp only [writeMix, asFin_of_lt hi, h]

theorem writeMix_stored (hi : i = m.val) (hr : readMix s.mix.recs[m] e = some r) : writeMix i e s =
    (modRec m (fun _ => r) (if r.point = s.mix.recs[m].point then s else pointMoved m r.point s), .ok) := by
  subst hi
  simp only [writeMix, asFin_val, hr]

/-- R80, R105: the record, and the lists of the outputs whose point moves. -/
theorem writeMix_effect (hi : i = m.val) (hr : readMix s.mix.recs[m] e = some r) : ∃ u, writeMix i e s = (u, .ok) ∧
    Only [.mix, .talk] s u ∧ u.mix.contrib = s.mix.contrib ∧ (∀ j : MixId, j ≠ m → u.mix.recs[j] = s.mix.recs[j]) ∧
    u.mix.recs[m] = r ∧ u.talk.confs = s.talk.confs ∧ u.talk.origins = s.talk.origins ∧
    ∀ j : MixId, u.talk.direct[j] =
      if r.point ≠ s.mix.recs[m].point ∧ (j = m ∨ (m < j ∧ r.point ≠ none ∧ s.mix.recs[j].point = r.point)) then []
      else s.talk.direct[j] := by
  refine ⟨_, writeMix_stored hi hr, ?_, ?_⟩
  · refine Only.trans (Only.ite (fun _ => .refl _ s) fun _ => ?_) ((modMix_only ..).mono (by decide))
    exact (modTalk_only ..).mono (by decide)
  · by_cases same : r.point = s.mix.recs[m].point
    · rw [if_pos same]
      refine ⟨rfl, fun j hj => (vmod_get ..).trans (if_neg hj.symm), vmod_same .., rfl, rfl, fun j => ?_⟩
      exact (if_neg fun h => h.1 same).symm
    · rw [if_neg same]
      refine ⟨rfl, fun j hj => (vmod_get ..).trans (if_neg hj.symm), vmod_same .., rfl, rfl, fun j => ?_⟩
      refine (vof_get ..).trans (if_congr ?_ rfl rfl)
      rw [and_iff_right same]
      simp only [Bool.or_eq_true, Bool.and_eq_true, decide_eq_true_eq, Option.isSome_iff_ne_none, beq_iff_eq, and_assoc]

end

/-! ### The tally map (R157, R159) -/

theorem readTerm_none {p : List Byte} (h : 16 ≤ (byteAt p 0).toNat ∨ (byteAt p 2).toNat % 4 = 3) : readTerm p = none := by
  rcases h with h | h
  · simp [readTerm, asFin_none h]
  · simp [readTerm, h]

theorem readTallyRec_refused {e : List Byte} (h : 5 ≤ (byteAt e 0).toNat ∨ (1024 ≤ (halfAt e 1).toNat ∧ halfAt e 1 ≠ 0xFFFF) ∨
    ∃ k < (byteAt e 0).toNat, 16 ≤ (byteAt e (3 + 5 * k)).toNat ∨ (byteAt e (5 + 5 * k)).toNat % 4 = 3) :
    readTallyRec e = none := by
  by_cases many : 4 < (byteAt e 0).toNat
  · simp [readTallyRec, many]
  · rcases h with h | h | ⟨k, hk, h⟩
    · omega
    · simp [readTallyRec, readPointOpt_none h]
    · have bad : readTerm (e.drop (3 + 5 * k)) = none := by
        apply readTerm_none
        rw [byteAt_drop, byteAt_drop, show 3 + 5 * k + 2 = 5 + 5 * k by omega]
        exact h
      have terms := mapM_none (f := fun k => readTerm (e.drop (3 + 5 * k))) (List.mem_range.2 hk) bad
      simp [readTallyRec, terms]

/-- R157: the drive of a term with its clamps. -/
def clampedDrive (kind : Fin 3) (a b : Nat) : Drive :=
  match kind with
  | 0 => .steady
  | 1 => .dim (max 1 (min a 15))
  | 2 => .flash (min a 32) (min b 32)

theorem readTerm_bytes (bus : BusId) (id : Byte) (air : Bool) (kind : Fin 3) (a b : Byte) (rest : List Byte) :
    readTerm ([b8 bus.val, id, b8 kind.val + (if air = true then 0x80 else 0), a, b] ++ rest) =
      some { bus := bus, source := id, drive := clampedDrive kind a.toNat b.toNat, air := air } := by
  have bus' := asFin_b8 (n := 16) (by decide) bus
  have drive : (b8 kind.val + (if air = true then 0x80 else 0)).toNat % 4 = kind.val := by
    revert kind air
    decide
  have air' : (b8 kind.val + (if air = true then 0x80 else 0)).getLsbD 7 = air := by
    revert kind air
    decide
  generalize b8 kind.val + (if air = true then 0x80 else 0) = d at drive air' ⊢
  match kind with
  | 0 | 1 | 2 =>
    simp only [readTerm, List.cons_append, byteAt_zero, byteAt_succ, bus', drive, air']
    rfl

/-- R157: a term as SET takes it: bus, source id, on-air, kind of drive and the two bytes of its values. -/
abbrev TermFields : Type := BusId × Byte × Bool × Fin 3 × Byte × Byte

def termLayout : TermFields → List Byte
  | (bus, id, air, kind, a, b) => [b8 bus.val, id, b8 kind.val + (if air = true then 0x80 else 0), a, b]

def termTaken : TermFields → Term
  | (bus, id, air, kind, a, b) => { bus := bus, source := id, drive := clampedDrive kind a.toNat b.toNat, air := air }

theorem readTallyRec_layout (call : Option PointId) {terms : List TermFields} (pad : List Byte) (few : terms.length ≤ 4) :
    readTallyRec ([b8 terms.length] ++ pointBytes call ++ terms.flatMap termLayout ++ pad) =
      some { terms := terms.map termTaken, callPoint := call } := by
  obtain ⟨a, b, hp, point⟩ := pointBytes_pair call
  have count : (b8 terms.length).toNat = terms.length := b8_toNat_of_lt (by omega)
  have body : ∀ k, ([b8 terms.length] ++ [a, b] ++ terms.flatMap termLayout ++ pad).drop (3 + 5 * k) =
      (terms.flatMap termLayout ++ pad).drop (5 * k) := fun k => by
    rw [List.append_assoc, ← List.drop_drop]
    rfl
  have read := mapM_range (l := terms.map termTaken)
    (f := fun k => readTerm (([b8 terms.length] ++ [a, b] ++ terms.flatMap termLayout ++ pad).drop (3 + 5 * k)))
    fun k x hx => by
      rw [List.getElem?_map] at hx
      obtain ⟨y, hy, rfl⟩ := Option.map_eq_some_iff.1 hx
      obtain ⟨rest, hrest⟩ := drop_runs (f := termLayout) (fun _ => rfl) pad hy
      rw [body, hrest]
      exact readTerm_bytes ..
  rw [List.length_map] at read
  have few' : ¬4 < terms.length := by omega
  have head : byteAt ([b8 terms.length] ++ [a, b] ++ terms.flatMap termLayout ++ pad) 0 = b8 terms.length := rfl
  have call' : halfAt ([b8 terms.length] ++ [a, b] ++ terms.flatMap termLayout ++ pad) 1 = half a b := rfl
  rw [hp, readTallyRec]
  simp only [head, count, few', if_false, call', point, read]
  rfl

section
variable {i : Nat} {j : LampId} {r : TallyRec} {e : List Byte} {s : State}

theorem writeTallymap_refused (hi : i < 40) (h : readTallyRec e = none) : writeTallymap i e s = (s, .invalid) := by
  simp only [writeTallymap, asFin_of_lt hi, h]

theorem writeTallymap_stored (hi : i = j.val) (hr : readTallyRec e = some r) : writeTallymap i e s =
    (resolveLamp j (s.modTally fun t => { t with map := t.map.set j r }), .ok) := by
  subst hi
  simp only [writeTallymap, asFin_val, hr]

/-- R157, R159: the record, and the lamp resolved at once. -/
theorem writeTallymap_effect (hi : i = j.val) (hr : readTallyRec e = some r) : ∃ u, writeTallymap i e s = (u, .ok) ∧
    Only [.tally, .lamp] s u ∧ u.tally.map = s.tally.map.set j r ∧ u.tally.drives[j] = lampDrive s.tally r ∧
    (∀ k : LampId, k ≠ j → u.tally.drives[k] = s.tally.drives[k] ∧ u.lamp.gens[k] = s.lamp.gens[k]) ∧
    (lampDrive s.tally r = s.tally.drives[j] → u.lamp = s.lamp) ∧
    (lampDrive s.tally r ≠ s.tally.drives[j] → u.lamp.gens[j].drive = lampDrive s.tally r) := by
  have stored : ∃ v, v = s.modTally fun t => { t with map := t.map.set j r } := ⟨_, rfl⟩
  obtain ⟨v, hv⟩ := stored
  have shows : lampShows v j = lampDrive s.tally r := by
    have entry : v.tally.map[j] = r := by rw [hv]; exact (vset_get ..).trans (if_pos rfl)
    rw [lampShows, entry, hv]
    rfl
  have drives : v.tally.drives = s.tally.drives := by rw [hv]; rfl
  have lamps : v.lamp = s.lamp := by rw [hv]; rfl
  have map : v.tally.map = s.tally.map.set j r := by rw [hv]; rfl
  have only : Only [.tally, .lamp] s v := hv ▸ (modTally_only ..).mono (by decide)
  refine ⟨resolveLamp j v, hv ▸ writeTallymap_stored hi hr, only.trans (resolveLamp_only j v), ?_, ?_, fun k hk => ?_,
    fun same => ?_, fun new => ?_⟩
  · rw [(resolveLamp_lampsOnly j v).tally, map]
  · by_cases same : lampShows v j = v.tally.drives[j]
    · rw [resolveLamp_same same, ← same, shows]
    · rw [(resolveLamp_new same).1, shows]
  · obtain ⟨drive, gen⟩ := resolveLamp_other (u := v) hk.symm
    rw [drive, gen, drives, lamps]
    exact ⟨rfl, rfl⟩
  · rw [resolveLamp_same (by rw [shows, drives, same]), lamps]
  · rw [(resolveLamp_new (by rw [shows, drives]; exact new)).2, shows]
    rfl

end

/-! ### Key maps and keys refused (R128, R129) -/

theorem readKeyMap_refused {e : List Byte} (h : 24 ≤ (byteAt e 1).toNat ∨ 128 ≤ (byteAt e 2).toNat ∨
    (1024 ≤ (halfAt e 3).toNat ∧ halfAt e 3 ≠ 0xFFFF) ∨ 4 ≤ (byteAt e 5).toNat) : readKeyMap e = none := by
  rcases h with h | h | h | h
  · simp [readKeyMap, asFin_none h]
  · simp [readKeyMap, asFin_none h]
  · simp [readKeyMap, readPointOpt_none h]
  · simp [readKeyMap, asFin_none h]

/-- R129: what stands in the way of a key's function. -/
theorem readKeyFn_refused {e : List Byte} (h : 7 ≤ (byteAt e 0).toNat ∨
    ((byteAt e 0 = 1 ∨ byteAt e 0 = 5) ∧ 1024 ≤ (halfAt e 1).toNat) ∨
    ((byteAt e 0 = 2 ∨ byteAt e 0 = 4) ∧ 64 ≤ (halfAt e 1).toNat) ∨
    (byteAt e 0 = 3 ∧ (16 ≤ (byteAt e 1).toNat ∨ byteAt e 2 = 0 ∨ 5 ≤ (byteAt e 2).toNat)) ∨
    (byteAt e 0 = 5 ∧ byteAt e 3 = 0) ∨
    (byteAt e 0 = 6 ∧ (byteAt e 1 = 0 ∨ 63 ≤ (byteAt e 1).toNat ∨ 64 ≤ (byteAt e 2).toNat ∨
      ∀ y : Source, halfAt e 3 ≠ halfAt (sourceBytes y) 0))) : readKeyFn e = none := by
  rcases h with h | ⟨h | h, hid⟩ | ⟨h | h, hid⟩ | ⟨h, hb⟩ | ⟨h, hd⟩ | ⟨h, hr⟩
  · unfold readKeyFn
    split
    all_goals first | omega | rfl
  · simp [readKeyFn, h, asFin_none hid]
  · simp [readKeyFn, h, asFin_none hid]
  · simp [readKeyFn, h, asFin_none hid]
  · simp [readKeyFn, h, asFin_none hid]
  · rcases hb with hb | hb | hb
    · simp [readKeyFn, h, asFin_none hb]
    · simp [readKeyFn, h, hb]
    · have many : ¬(byteAt e 2).toNat ≤ 4 := by omega
      simp [readKeyFn, h, many]
  · simp [readKeyFn, h, hd]
  · rcases hr with hr | hr | hr | hr
    · have unsound : sourceOk (byteAt e 1) = false := by rw [hr]; rfl
      simp [readKeyFn, h, unsound]
    · have unsound : sourceOk (byteAt e 1) = false := by
        rw [← Bool.not_eq_true, sourceOk_iff]
        omega
      simp [readKeyFn, h, unsound]
    · simp [readKeyFn, h, asFin_none hr]
    · simp [readKeyFn, h, readSource_none hr]

/-- R129: what stands in the way of a KEY entry. -/
theorem readKeyEntry_refused {e : List Byte} (h : readKeyFn e = none ∨ 3 ≤ (byteAt e 5).toNat ∨ 2 ≤ (byteAt e 6).toNat ∨
    16 ≤ (byteAt e 7).toNat ∨ 4 ≤ (byteAt e 8).toNat ∨ 3 ≤ (byteAt e 9).toNat) : readKeyEntry e = none := by
  rcases h with h | h | h | h | h | h
  · simp [readKeyEntry, h]
  · have mode : [KeyMode.momentary, .latching, .auto][(byteAt e 5).toNat]? = none := List.getElem?_eq_none h
    simp [readKeyEntry, mode]
  · simp [readKeyEntry, readFlag_none h]
  · have many : 15 < (byteAt e 7).toNat := h
    simp [readKeyEntry, many]
  · have report : [KeyReport.none, .press, .release, .both][(byteAt e 8).toNat]? = none := List.getElem?_eq_none h
    simp [readKeyEntry, report]
  · have colour : [Colour.red, .green, .amber][(byteAt e 9).toNat]? = none := List.getElem?_eq_none h
    simp [readKeyEntry, colour]

end Sys2Proof.Machine
end

section
/-! SUPPORT. Keys and talks that end, lines that are lost, and the KEYMAP and KEY entries that end them (O53). -/

namespace Sys2Proof.Machine

open Sys2Proof

/-! ### What the end of talks and keys leaves (R87, R127, R129) -/

/-- The blocks that the end of a key's function changes. -/
def keyEndBlocks : List Block := [.panel, .talk, .mix, .cells, .mgmt]

theorem talk_keyEnd {s t : State} (h : Only talkBlocks s t) : Only keyEndBlocks s t := h.mono (by decide)

/-- `t` is `s` after talks of map `m` were ended and keys of it deactivated, those that `ks` names. -/
structure KeysEnd (m : MapId) (ks : KeyId → Prop) (s t : State) : Prop where
  only : Only keyEndBlocks s t
  flags : FlagsRise s t
  panel : t.panel = { s.panel with keys := t.panel.keys }
  keys : ∀ n, (∀ k, ks k → n ≠ keyIx m k) → t.panel.keys[n] = s.panel.keys[n]
  input : ∀ n : Fin 256, t.panel.keys[n].cond = s.panel.keys[n].cond ∧ t.panel.keys[n].run = s.panel.keys[n].run
  gone : ∀ (o : OriginId) e, t.talk.origins[o] = some e → s.talk.origins[o] = some e
  kept : ∀ (o : OriginId) e, s.talk.origins[o] = some e → e.map ≠ m → t.talk.origins[o] = some e

section
variable {m : MapId} {k : KeyId} {ks ls : KeyId → Prop} {s t u : State}

theorem KeysEnd.refl (m : MapId) (ks : KeyId → Prop) (s : State) : KeysEnd m ks s s :=
  ⟨.refl _ s, .refl s, rfl, fun _ _ => rfl, fun _ => ⟨rfl, rfl⟩, fun _ _ h => h, fun _ _ h _ => h⟩

theorem KeysEnd.trans (h : KeysEnd m ks s t) (g : KeysEnd m ks t u) : KeysEnd m ks s u where
  only := h.only.trans g.only
  flags := h.flags.trans g.flags
  panel := by rw [g.panel, h.panel]
  keys n hn := (g.keys n hn).trans (h.keys n hn)
  input n := ⟨(g.input n).1.trans (h.input n).1, (g.input n).2.trans (h.input n).2⟩
  gone o e he := h.gone o e (g.gone o e he)
  kept o e he hm := g.kept o e (h.kept o e he hm) hm

theorem KeysEnd.mono (h : KeysEnd m ks s t) (sub : ∀ k, ks k → ls k) : KeysEnd m ls s t :=
  { h with keys := fun n hn => h.keys n fun k hk => hn k (sub k hk) }

theorem KeysEnd.forFin {n : Nat} {f : Fin n → State → State} (h : ∀ i s, KeysEnd m ks s (f i s)) (s : State) :
    KeysEnd m ks s (forFin n f s) :=
  forFin_induct (KeysEnd m ks s) f (fun i a ha => ha.trans (h i a)) s (.refl m ks s)

/-- A change of no origin entry that leaves the panels. -/
theorem KeysEnd.of_talk (only : Only keyEndBlocks s t) (flags : FlagsRise s t) (panel : t.panel = s.panel)
    (gone : ∀ (o : OriginId) e, t.talk.origins[o] = some e → s.talk.origins[o] = some e)
    (kept : ∀ (o : OriginId) e, s.talk.origins[o] = some e → e.map ≠ m → t.talk.origins[o] = some e) :
    KeysEnd m ks s t where
  only := only
  flags := flags
  panel := by rw [panel]
  keys n _ := by rw [panel]
  input n := by rw [panel]; exact ⟨rfl, rfl⟩
  gone := gone
  kept := kept

/-- A change of one key that leaves its conditioned input. -/
theorem KeysEnd.modKey {f : KeyState → KeyState} (hf : ∀ x, (f x).cond = x.cond ∧ (f x).run = x.run) (s : State) :
    KeysEnd m (· = k) s (modKey m k f s) := by
  have after : ∀ n, (Machine.modKey m k f s).panel.keys[n] =
      if keyIx m k = n then f s.panel.keys[keyIx m k] else s.panel.keys[n] := fun n => vmod_get ..
  refine ⟨(modKey_only ..).mono (by decide), .of_eq rfl, rfl, fun n hn => ?_, fun n => ?_, fun _ _ h => h, fun _ _ h _ => h⟩
  · rw [after, if_neg (hn k rfl).symm]
  · rw [after]
    split
    · next h =>
      subst h
      exact hf _
    · exact ⟨rfl, rfl⟩

end

theorem KeysEnd.then_modKey {m : MapId} {k : KeyId} {s t : State} {f : KeyState → KeyState} (h : KeysEnd m (· = k) s t)
    (hf : ∀ x, (f x).cond = x.cond ∧ (f x).run = x.run) : KeysEnd m (· = k) s (Machine.modKey m k f t) :=
  h.trans (.modKey hf t)

/-! ### The end of a talk (R87) -/

theorem handleTalkOff_origins (target : TalkTarget) (n : Byte) (i : OriginId) (s : State) :
    (handleTalkOff target n i s).talk.origins = s.talk.origins := by
  unfold handleTalkOff
  split
  · rfl
  · next l _ =>
    split
    · have sent : (announceListOff l n i (modList l (dropTalker n i) s)).talk = (modList l (dropTalker n i) s).talk :=
        (announceListOff_only ..).keep .talk (by decide)
      rw [sent]
      cases l <;> rfl
    · rfl

/-- R87: an entry that is ended leaves the table; the others stand. -/
theorem endOrigin_origins (i : OriginId) (s : State) :
    (endOrigin i s).talk.origins = s.talk.origins.set i none := by
  unfold endOrigin
  split
  · next free =>
    refine Vector.ext fun n hn => ?_
    by_cases h : i.val = n
    · subst h
      exact free.trans (Vector.getElem_set_self ..).symm
    · exact (Vector.getElem_set_ne _ _ h).symm
  · dsimp only
    split
    · exact handleTalkOff_origins ..
    · have sent : ∀ target u, (sendTalkOff target i u).talk = u.talk := fun _ _ => (sendCell_only ..).keep .talk (by decide)
      exact congrArg TalkAuthority.origins (sent ..)

theorem endOrigin_get (i o : OriginId) (s : State) :
    (endOrigin i s).talk.origins[o] = if i = o then none else s.talk.origins[o] := by
  rw [endOrigin_origins]
  exact vset_get ..

theorem endOrigin_keysEnd {m : MapId} {ks : KeyId → Prop} {i : OriginId} {e : OriginEntry} {s : State}
    (he : s.talk.origins[i] = some e) (hm : e.map = m) : KeysEnd m ks s (endOrigin i s) := by
  refine .of_talk (talk_keyEnd (endOrigin_only ..)) (endOrigin_flags ..) ((endOrigin_only ..).keep .panel (by decide))
    (fun o x hx => ?_) fun o x hx other => ?_
  · rw [endOrigin_get] at hx
    split at hx
    · cases hx
    · exact hx
  · rw [endOrigin_get, if_neg ?_]
    · exact hx
    · rintro rfl
      exact other (Option.some.inj (he.symm.trans hx) ▸ hm)

theorem findOrigin_map {t : TalkAuthority} {m : MapId} {k : KeyId} {sub : Option (Fin 4)} {i : OriginId}
    (h : findOrigin t m k sub = some i) : ∃ e, t.origins[i] = some e ∧ e.map = m := by
  have found := (firstFin_spec h).1
  split at found
  · next e he =>
    simp only [Bool.and_eq_true, beq_iff_eq] at found
    exact ⟨e, he, found.1.1⟩
  · cases found

section
variable (m : MapId) (k : KeyId) (ks : KeyId → Prop) (s : State)

theorem endKeyOrigin_keysEnd (sub : Option (Fin 4)) : KeysEnd m ks s (endKeyOrigin m k sub s) := by
  unfold endKeyOrigin
  split
  · exact .refl m ks s
  · next i hi =>
    obtain ⟨e, he, hm⟩ := findOrigin_map hi
    exact endOrigin_keysEnd he hm

theorem endKeyOrigins_keysEnd : KeysEnd m ks s (endKeyOrigins m k s) :=
  (endKeyOrigin_keysEnd m k ks s none).trans (.forFin (fun _ u => endKeyOrigin_keysEnd m k ks u _) _)

/-- R88: one step of the end of a map's talks. -/
def endIfOf (m : MapId) (i : OriginId) (s : State) : State :=
  match s.talk.origins[i] with
  | some e => if e.map = m then endOrigin i s else s
  | none => s

theorem endMapOrigins_eq : endMapOrigins m s = forFin 64 (endIfOf m) s := rfl

theorem endIfOf_keysEnd (i : OriginId) : KeysEnd m ks s (endIfOf m i s) := by
  unfold endIfOf
  split
  · next e he =>
    split
    · next hm => exact endOrigin_keysEnd he hm
    · exact .refl m ks s
  · exact .refl m ks s

theorem endMapOrigins_keysEnd : KeysEnd m ks s (endMapOrigins m s) := .forFin (fun i u => endIfOf_keysEnd m ks u i) s

theorem endIfOf_ended (i : OriginId) (e : OriginEntry) (h : (endIfOf m i s).talk.origins[i] = some e) : e.map ≠ m := by
  unfold endIfOf at h
  split at h
  · next x hx =>
    split at h
    · cases ((endOrigin_get i i s).trans (if_pos rfl)).symm.trans h
    · next other => exact Option.some.inj (hx.symm.trans h) ▸ other
  · next free => cases free.symm.trans h

/-- R88: no talk of the map is left. -/
theorem endMapOrigins_ended (o : OriginId) : ∀ e, (endMapOrigins m s).talk.origins[o] = some e → e.map ≠ m := by
  have stays : ∀ i u, True → (∀ e, u.talk.origins[o] = some e → e.map ≠ m) →
      ∀ e, (endIfOf m i u).talk.origins[o] = some e → e.map ≠ m := fun i u _ ended e he =>
    ended e ((endIfOf_keysEnd m (fun _ => False) u i).gone o e he)
  have ended := forFin_reaches (P := fun _ => True) (Q := fun u => ∀ e, u.talk.origins[o] = some e → e.map ≠ m) o
    (fun _ _ _ => trivial) (fun u _ => endIfOf_ended m u o) stays (a := s) trivial
  rwa [← endMapOrigins_eq] at ended

end

/-! ### The end of a key (R133 to R139) -/

section
variable (m : MapId) (k : KeyId) (s : State)

theorem toggleSub_keysEnd (c : ConfId) (x : MixId) (ks : KeyId → Prop) : KeysEnd m ks s (toggleSub x c s).1 := by
  have only := toggleSub_only x c s
  have talk : (toggleSub x c s).1.talk = s.talk := only.keep .talk (by decide)
  have mgmt : (toggleSub x c s).1.mgmt = s.mgmt := only.keep .mgmt (by decide)
  exact .of_talk (only.mono (by decide)) (.of_eq (by rw [mgmt])) (only.keep .panel (by decide))
    (fun o e h => by rwa [talk] at h) fun o e h _ => by rwa [talk]

theorem deactivateFn_keysEnd : KeysEnd m (· = k) s (deactivateFn m k s) := by
  unfold deactivateFn
  split
  · exact .refl ..
  · exact .refl ..
  · exact .refl ..
  · exact (endKeyOrigin_keysEnd ..).then_modKey fun _ => ⟨rfl, rfl⟩
  · exact (endKeyOrigin_keysEnd ..).then_modKey fun _ => ⟨rfl, rfl⟩
  · exact (endKeyOrigins_keysEnd ..).then_modKey fun _ => ⟨rfl, rfl⟩
  · next c _ =>
    split
    · exact .refl ..
    · have toggled : KeysEnd m (· = k) s (modKey m k (fun x => { x with toggled := none })
          (toggleSub s.panel.maps[m].listen c s).1) :=
        (toggleSub_keysEnd ..).then_modKey fun _ => ⟨rfl, rfl⟩
      dsimp only
      split
      · exact toggled.then_modKey fun _ => ⟨rfl, rfl⟩
      · exact toggled

theorem setActive_off : KeysEnd m (· = k) s (setActive m k false s) := by
  unfold setActive
  split
  · exact .refl ..
  · have off : KeysEnd m (· = k) s (modKey m k (fun x => { x with active := false }) s) :=
      (KeysEnd.refl ..).then_modKey fun _ => ⟨rfl, rfl⟩
    exact off.trans (deactivateFn_keysEnd ..)

theorem releaseKeys_keysEnd : KeysEnd m (fun _ => True) s (releaseKeys m s) :=
  .forFin (fun k u => (setActive_off m k u).mono fun _ _ => trivial) s

theorem clearKeys_cleared : keyState (clearKeys m s) m k = KeyState.reset := by
  unfold clearKeys
  refine forFin_reaches (P := fun _ => True) (Q := fun u => keyState u m k = KeyState.reset) k (fun _ _ _ => trivial)
    (fun _ _ => modKey_own ..) (fun j u _ h => (vmod_get ..).trans ?_) trivial
  split
  · rfl
  · exact h

theorem clearKeys_others (n : Fin 256) (hn : ∀ k, n ≠ keyIx m k) : (clearKeys m s).panel.keys[n] = s.panel.keys[n] := by
  have step : ∀ j u, u.panel.keys[n] = s.panel.keys[n] →
      (modKey m j (fun _ => KeyState.reset) u).panel.keys[n] = s.panel.keys[n] := fun j u h =>
    ((vmod_get ..).trans (if_neg (hn j).symm)).trans h
  have kept := forFin_induct (fun u => u.panel.keys[n] = s.panel.keys[n]) _ step s rfl
  rwa [← clearKeys] at kept

/-- R127: of all the state the keys alone change. -/
theorem clearKeys_eq : clearKeys m s = { s with panel := { s.panel with keys := (clearKeys m s).panel.keys } } := by
  have keys : ∃ keys, clearKeys m s = { s with panel := { s.panel with keys := keys } } := by
    unfold clearKeys
    refine forFin_induct (fun u => ∃ keys, u = { s with panel := { s.panel with keys := keys } }) _ ?_ s ⟨_, rfl⟩
    rintro j _ ⟨keys, rfl⟩
    exact ⟨_, rfl⟩
  obtain ⟨keys, h⟩ := keys
  rw [h]

end

/-! ### A line that is lost (R124, R126, R127) -/

/-- R127, step 1: the line is ABSENT, and the change is reported. -/
def absentReported (i : LineId) (id : Byte) (s : State) : State :=
  reportPanel i s.panel.lines[i].state id (modPanelLine i toAbsent s)

/-- R127: the talks and the keys of the line's map are ended. -/
def lineReleased (i : LineId) (id : Byte) (m : MapId) (s : State) : State :=
  releaseKeys m (endMapOrigins m (absentReported i id s))

section
variable (i : LineId) (id : Byte) (m : MapId) (s : State)

theorem absentReported_eq : absentReported i id s = report .panelChange
    ([b8 i.val, lineStateCode s.panel.lines[i].state, 0, id, 0xFF] ++ epochBytes s.sp.epoch) (modPanelLine i toAbsent s) := by
  have line : (modPanelLine i toAbsent s).panel.lines[i] = toAbsent s.panel.lines[i] := vmod_same ..
  unfold absentReported reportPanel
  dsimp only
  rw [line]
  rfl

theorem absentReported_panel : (absentReported i id s).panel = { s.panel with
    lines := s.panel.lines.set i (toAbsent s.panel.lines[i]) } := by
  rw [absentReported_eq]
  exact (report_only ..).keep .panel (by decide)

theorem absentReported_only : Only [.panel, .cells, .mgmt] s (absentReported i id s) := by
  rw [absentReported_eq]
  exact ((modPanel_only ..).mono (by decide)).trans ((report_only ..).mono (by decide))

theorem absentReported_flagged : (absentReported i id s).mgmt.sticky.getLsbD 8 = true := by
  rw [absentReported_eq]
  exact (report_flags ..).2

theorem lineReleased_keysEnd : KeysEnd m (fun _ => True) (absentReported i id s) (lineReleased i id m s) := by
  have ends := endMapOrigins_keysEnd m (fun _ => True) (absentReported i id s)
  have releases := releaseKeys_keysEnd m (endMapOrigins m (absentReported i id s))
  exact ends.trans releases

/-- R127: the origins of the map are gone, those of other maps stand. -/
theorem lineReleased_origins (o : OriginId) (e : OriginEntry) : (lineReleased i id m s).talk.origins[o] = some e ↔
    s.talk.origins[o] = some e ∧ e.map ≠ m := by
  have talk : (absentReported i id s).talk = s.talk := (absentReported_only i id s).keep .talk (by decide)
  have ends := lineReleased_keysEnd i id m s
  have released : KeysEnd m (fun _ => True) (endMapOrigins m (absentReported i id s)) (lineReleased i id m s) :=
    releaseKeys_keysEnd ..
  refine ⟨fun h => ⟨talk ▸ ends.gone o e h, endMapOrigins_ended _ _ o e (released.gone o e h)⟩, fun ⟨h, hm⟩ => ?_⟩
  exact ends.kept o e (talk ▸ h) hm

theorem lineReleased_lines : (lineReleased i id m s).panel.lines = s.panel.lines.set i (toAbsent s.panel.lines[i]) := by
  rw [(lineReleased_keysEnd ..).panel, absentReported_panel]

variable {i id m s}

theorem loseLine_bound (hb : s.panel.lines[i].state = .bound) (hm : s.panel.lines[i].map = some m) :
    loseLine i id s = clearKeys m (lineReleased i id m s) := by
  unfold loseLine
  simp only [hb, hm]
  rw [lineReleased, absentReported, hb]

theorem loseLine_unbound (h : ∀ m, s.panel.lines[i].state = .bound → s.panel.lines[i].map ≠ some m) :
    loseLine i id s = absentReported i id s := by
  unfold loseLine
  dsimp only
  split
  · next m hb hm => exact absurd hm (h m hb)
  · rfl

theorem lineLost_of_absent (h : ∀ m, s.panel.lines[i].state = .bound → s.panel.lines[i].map ≠ some m) :
    LineLost i id s (absentReported i id s) where
  line := by rw [absentReported_panel]; rfl
  tables := by rw [absentReported_panel]; exact ⟨rfl, rfl⟩
  flagged := absentReported_flagged ..
  unbound u hu _ := by
    rw [absentReported_panel] at hu
    rw [hu, absentReported_eq]
    rfl
  bound u m _ hb hm := absurd hm (h m hb)
  only := (absentReported_only i id s).mono (by decide)

theorem lineLost_of_bound {t : State} (hb : s.panel.lines[i].state = .bound) (hm : s.panel.lines[i].map = some m)
    (ht : t = clearKeys m (lineReleased i id m s)) : LineLost i id s t := by
  have ends := lineReleased_keysEnd i id m s
  have lines := lineReleased_lines i id m s
  have origins := lineReleased_origins i id m s
  have cleared := clearKeys_eq m (lineReleased i id m s)
  have others := clearKeys_others m (lineReleased i id m s)
  have reset : ∀ k, keyState (clearKeys m (lineReleased i id m s)) m k = KeyState.reset := fun k => clearKeys_cleared m k _
  have panel := absentReported_panel i id s
  obtain ⟨v, hv⟩ : ∃ v, v = lineReleased i id m s := ⟨_, rfl⟩
  rw [← hv] at ends lines origins
  rw [← ht, ← hv] at cleared
  rw [← ht] at others reset
  rw [← hv] at others
  have after : t.panel.lines = s.panel.lines.set i (toAbsent s.panel.lines[i]) := by
    rw [cleared]
    exact lines
  have talk : t.talk = v.talk := by rw [cleared]
  have mgmt : t.mgmt = v.mgmt := by rw [cleared]
  refine ⟨after, ?_, ?_, fun u _ other => absurd hb other, fun u m' hu _ hm' => ?_, ?_⟩
  · rw [cleared, ends.panel, panel]
    exact ⟨rfl, rfl⟩
  · rw [mgmt]
    exact ends.flags.2 8 (absentReported_flagged ..)
  · obtain rfl : m = m' := Option.some.inj (hm.symm.trans hm')
    have told : absentReported i id s = report .panelChange ([b8 i.val, 1, 0, id, 0xFF] ++ epochBytes s.sp.epoch) u := by
      rw [hu, after, absentReported_eq, hb]
      rfl
    rw [lineReleased, told] at hv
    intro told' ended released
    have hv' : v = released := hv
    refine ⟨?_, fun n hn => ?_, reset, fun o e h => ?_, fun o e h other => ?_⟩
    · rw [← hv']
      exact cleared
    · rw [others n hn, ends.keys n fun k _ => hn k, panel]
    · rw [talk] at h
      exact ((origins o e).1 h).symm
    · rw [talk]
      exact (origins o e).2 ⟨h, other⟩
  · refine ((absentReported_only i id s).mono (by decide)).trans (ends.only.trans ?_)
    rw [ht, ← hv]
    exact (clearKeys_only ..).mono (by decide)

/-- R124, R126, R127: what the loss of a line does. -/
theorem loseLine_lost (i : LineId) (id : Byte) (s : State) : LineLost i id s (loseLine i id s) := by
  by_cases h : ∃ m, s.panel.lines[i].state = .bound ∧ s.panel.lines[i].map = some m
  · obtain ⟨m, hb, hm⟩ := h
    exact lineLost_of_bound hb hm (loseLine_bound hb hm)
  · have unbound : ∀ m, s.panel.lines[i].state = .bound → s.panel.lines[i].map ≠ some m := fun m hb hm => h ⟨m, hb, hm⟩
    rw [loseLine_unbound unbound]
    exact lineLost_of_absent unbound

end

/-! ### The line of a map (R127, R128) -/

/-- R124: the line is BOUND to the map. -/
def BoundTo (p : Panel) (n : MapId) (j : LineId) : Prop := p.lines[j].state = .bound ∧ p.lines[j].map = some n

theorem boundLine_test (p : Panel) (n : MapId) (j : LineId) :
    (p.lines[j].state == .bound && p.lines[j].map == some n) = true ↔ BoundTo p n j := by
  rw [Bool.and_eq_true, beq_iff_eq, beq_iff_eq, BoundTo]

theorem boundLine_none {p : Panel} {n : MapId} : boundLine p n = none ↔ ∀ j, ¬BoundTo p n j := by
  unfold boundLine
  rw [firstFin_none]
  exact forall_congr' fun j => by rw [← boundLine_test, Bool.not_eq_true]

theorem boundLine_some {p : Panel} {n : MapId} {j : LineId} :
    boundLine p n = some j ↔ BoundTo p n j ∧ ∀ q < j, ¬BoundTo p n q := by
  have spec : ∀ i, boundLine p n = some i → BoundTo p n i ∧ ∀ q < i, ¬BoundTo p n q := fun i hi => by
    obtain ⟨first, before⟩ := firstFin_spec hi
    exact ⟨(boundLine_test p n i).1 first, fun q hq h =>
      Bool.false_ne_true ((before q hq).symm.trans ((boundLine_test p n q).2 h))⟩
  refine ⟨spec j, fun ⟨bound, before⟩ => ?_⟩
  cases h : boundLine p n with
  | none => exact absurd bound (boundLine_none.1 h j)
  | some i =>
    obtain ⟨bound', before'⟩ := spec i h
    rcases lt_trichotomy i j with lt | rfl | lt
    · exact absurd bound' (before i lt)
    · rfl
    · exact absurd bound (before' j lt)

theorem BoundTo.map_eq {p : Panel} {n n' : MapId} {j : LineId} (h : BoundTo p n j) (h' : BoundTo p n' j) : n = n' :=
  Option.some.inj (h.2.symm.trans h'.2)

/-- `t` is `s` after the line of each of the maps `l` was lost. -/
structure LinesUnbound (l : List MapId) (s t : State) : Prop where
  only : Only keyEndBlocks s t
  tables : t.panel.maps = s.panel.maps ∧ t.panel.entries = s.panel.entries
  lost : ∀ n ∈ l, ∀ j, boundLine s.panel n = some j → t.panel.lines[j] = toAbsent s.panel.lines[j]
  stands : ∀ j, (∀ n ∈ l, boundLine s.panel n ≠ some j) → t.panel.lines[j] = s.panel.lines[j]
  origins : ∀ (o : OriginId) e, t.talk.origins[o] = some e ↔
    s.talk.origins[o] = some e ∧ ∀ j, ¬(e.map ∈ l ∧ boundLine s.panel e.map = some j)

section
variable {l : List MapId} {n : MapId} {j : LineId} {s t u : State}

theorem LinesUnbound.refl (s : State) : LinesUnbound [] s s :=
  ⟨.refl _ s, ⟨rfl, rfl⟩, fun _ h => (List.not_mem_nil h).elim, fun _ _ => rfl,
    fun _ _ => ⟨fun h => ⟨h, fun _ x => List.not_mem_nil x.1⟩, And.left⟩⟩

/-- No line is bound to another map than before. -/
theorem LinesUnbound.boundTo (h : LinesUnbound l s t) (hn : n ∉ l) (j : LineId) : BoundTo t.panel n j ↔ BoundTo s.panel n j := by
  by_cases lost : ∃ n' ∈ l, boundLine s.panel n' = some j
  · obtain ⟨n', hl, hb⟩ := lost
    have other : ¬BoundTo s.panel n j := fun own => hn ((own.map_eq (boundLine_some.1 hb).1) ▸ hl)
    have gone : ¬BoundTo t.panel n j := fun own => by
      have state := own.1
      rw [h.lost n' hl j hb] at state
      cases state
    exact iff_of_false gone other
  · have line := h.stands j fun n' hl hb => lost ⟨n', hl, hb⟩
    rw [BoundTo, line, BoundTo]

theorem LinesUnbound.boundLine (h : LinesUnbound l s t) (hn : n ∉ l) : boundLine t.panel n = boundLine s.panel n := by
  refine Option.ext fun j => ?_
  rw [boundLine_some, boundLine_some, h.boundTo hn]
  simp only [h.boundTo hn]

theorem LinesUnbound.cons (h : LinesUnbound [n] s t) (g : LinesUnbound l t u) (hn : n ∉ l) : LinesUnbound (n :: l) s u := by
  have others : ∀ n' ∈ l, Machine.boundLine t.panel n' = Machine.boundLine s.panel n' := fun n' hl =>
    h.boundLine fun hm => hn (List.mem_singleton.1 hm ▸ hl)
  refine ⟨h.only.trans g.only, ⟨g.tables.1.trans h.tables.1, g.tables.2.trans h.tables.2⟩, fun n' hl j hb => ?_,
    fun j stands => ?_, fun o e => ?_⟩
  · rcases List.mem_cons.1 hl with rfl | hl
    · have line := h.lost n' (List.mem_singleton.2 rfl) j hb
      rw [g.stands j fun n'' _ hb' => ?_, line]
      have state := (boundLine_some.1 hb').1.1
      rw [line] at state
      cases state
    · have line : t.panel.lines[j] = s.panel.lines[j] := h.stands j fun n'' hm hb' => by
        have same := (boundLine_some.1 hb').1.map_eq (boundLine_some.1 hb).1
        exact hn (List.mem_singleton.1 hm ▸ same ▸ hl)
      rw [g.lost n' hl j ((others n' hl).trans hb), line]
  · rw [g.stands j fun n' hl => by rw [others n' hl]; exact stands n' (List.mem_cons_of_mem n hl)]
    exact h.stands j fun n' hm => stands n' (List.mem_singleton.1 hm ▸ List.mem_cons_self)
  · rw [g.origins, h.origins, and_assoc, ← forall_and]
    refine and_congr_right fun _ => forall_congr' fun j => ?_
    rw [← not_or, not_iff_not, List.mem_singleton, List.mem_cons]
    constructor
    · rintro (⟨hm, hb⟩ | ⟨hl, hb⟩)
      · exact ⟨.inl hm, hb⟩
      · exact ⟨.inr hl, (others _ hl).symm.trans hb⟩
    · rintro ⟨hm | hl, hb⟩
      · exact .inl ⟨hm, hb⟩
      · exact .inr ⟨hl, (others _ hl).trans hb⟩

theorem unbindMap_none (h : Machine.boundLine s.panel n = none) : unbindMap n s = s := by
  unfold unbindMap
  rw [h]

theorem unbindMap_some (h : Machine.boundLine s.panel n = some j) :
    unbindMap n s = loseLine j (s.panel.lines[j].panelId.getD 0) s := by
  unfold unbindMap
  rw [h]

theorem LineLost.unbound_one {id : Byte} (h : LineLost j id s t) (hb : Machine.boundLine s.panel n = some j) :
    LinesUnbound [n] s t := by
  obtain ⟨bound, map⟩ := (boundLine_some.1 hb).1
  obtain ⟨-, -, -, gone, kept⟩ := h.bound _ n rfl bound map
  have line : ∀ q : LineId, t.panel.lines[q] = if j = q then toAbsent s.panel.lines[j] else s.panel.lines[q] := fun q => by
    rw [h.line]
    exact vset_get ..
  have only_n : ∀ n' ∈ [n], n' = n := fun n' hm => List.mem_singleton.1 hm
  refine ⟨h.only, h.tables, fun n' hm q hq => ?_, fun q stands => ?_, fun o e => ⟨fun ho => ?_, fun ⟨ho, hm⟩ => ?_⟩⟩
  · rw [only_n n' hm, hb] at hq
    cases hq
    rw [line, if_pos rfl]
  · rw [line, if_neg]
    rintro rfl
    exact stands n (List.mem_singleton.2 rfl) hb
  · obtain ⟨other, before⟩ := gone o e ho
    exact ⟨before, fun _ x => other (only_n _ x.1)⟩
  · refine kept o e ho fun hmap => hm j ⟨List.mem_singleton.2 hmap, ?_⟩
    rw [hmap, hb]

theorem unbindMap_unbound (n : MapId) (s : State) : LinesUnbound [n] s (unbindMap n s) := by
  cases hb : Machine.boundLine s.panel n with
  | none =>
    have free : ∀ n' ∈ [n], ∀ j, Machine.boundLine s.panel n' ≠ some j := fun n' hm j => by
      rw [List.mem_singleton.1 hm, hb]
      exact nofun
    rw [unbindMap_none hb]
    exact ⟨.refl _ s, ⟨rfl, rfl⟩, fun n' hm j hj => (free n' hm j hj).elim, fun _ _ => rfl,
      fun _ _ => ⟨fun h => ⟨h, fun j x => free _ x.1 j x.2⟩, And.left⟩⟩
  | some j =>
    rw [unbindMap_some hb]
    exact (loseLine_lost ..).unbound_one hb

/-- R127, R128: the lines of several maps are lost, in order. -/
def unbindAll (l : List MapId) (s : State) : State := l.foldl (fun acc n => unbindMap n acc) s

theorem unbindAll_unbound (distinct : l.Nodup) (s : State) : LinesUnbound l s (unbindAll l s) := by
  induction l generalizing s with
  | nil => exact .refl s
  | cons n l ih =>
    obtain ⟨hn, distinct⟩ := List.nodup_cons.1 distinct
    exact (unbindMap_unbound n s).cons (ih distinct (unbindMap n s)) hn

theorem unbindAll_none (free : ∀ n ∈ l, Machine.boundLine s.panel n = none) : unbindAll l s = s := by
  induction l with
  | nil => rfl
  | cons n l ih =>
    obtain ⟨hn, free⟩ := List.forall_mem_cons.1 free
    rw [unbindAll, List.foldl_cons, unbindMap_none hn]
    exact ih free

/-- R128: where one map of the list has a line, that line alone is lost. -/
theorem unbindAll_one (distinct : l.Nodup) (hn : n ∈ l) (hb : Machine.boundLine s.panel n = some j)
    (free : ∀ n' ∈ l, n' ≠ n → Machine.boundLine s.panel n' = none) :
    unbindAll l s = loseLine j (s.panel.lines[j].panelId.getD 0) s := by
  induction l with
  | nil => cases hn
  | cons x l ih =>
    obtain ⟨hx, distinct⟩ := List.nodup_cons.1 distinct
    rcases List.mem_cons.1 hn with rfl | hn
    · have lost := unbindMap_unbound n s
      have rest : unbindAll l (unbindMap n s) = unbindMap n s := unbindAll_none fun n' hl => by
        have other : n' ≠ n := fun same => hx (same ▸ hl)
        rw [lost.boundLine fun hm => other (List.mem_singleton.1 hm)]
        exact free n' (List.mem_cons_of_mem n hl) other
      exact rest.trans (unbindMap_some hb)
    · have other : x ≠ n := fun same => hx (same ▸ hn)
      rw [unbindAll, List.foldl_cons, unbindMap_none (free x List.mem_cons_self other)]
      exact ih distinct hn fun n' hl => free n' (List.mem_cons_of_mem x hl)

end

/-! ### The write of a key map (R128) -/

section
variable (m : MapId) (old new : KeyMap) (s : State)

/-- R128: the maps whose lines a write takes, in order. -/
def takenMaps : List MapId :=
  (if old.panelId ≠ new.panelId ∨ old.listen ≠ new.listen then [m] else []) ++
    if old.panelId ≠ new.panelId ∧ new.panelId ≠ 0 then
      (List.finRange 8).filter fun n => m < n && s.panel.maps[n].panelId == new.panelId
    else []

theorem mem_takenMaps (n : MapId) : n ∈ takenMaps m old new s ↔
    (n = m ∧ (old.panelId ≠ new.panelId ∨ old.listen ≠ new.listen)) ∨
      (m < n ∧ old.panelId ≠ new.panelId ∧ new.panelId ≠ 0 ∧ s.panel.maps[n].panelId = new.panelId) := by
  unfold takenMaps
  rw [List.mem_append]
  refine or_congr ?_ ?_
  · split
    · next h => simp [h]
    · next h => simp [h]
  · split
    · next h =>
      rw [List.mem_filter, Bool.and_eq_true, decide_eq_true_eq, beq_iff_eq]
      exact ⟨fun x => ⟨x.2.1, h.1, h.2, x.2.2⟩, fun x => ⟨List.mem_finRange n, x.1, x.2.2.2⟩⟩
    · next h => exact iff_of_false List.not_mem_nil fun x => h ⟨x.2.1, x.2.2.1⟩

theorem takenMaps_nodup : (takenMaps m old new s).Nodup := by
  unfold takenMaps
  refine List.Nodup.append ?_ ?_ fun n h1 h2 => ?_
  · split <;> simp
  · split
    · exact (List.nodup_finRange 8).filter _
    · exact .nil
  · have own : n = m := by
      split at h1
      · exact List.mem_singleton.1 h1
      · cases h1
    subst own
    split at h2
    · simp [List.mem_filter] at h2
    · cases h2

/-- R128: the maps stand while lines are lost, so that the maps taken are those of the beginning. -/
theorem unbindHigher_eq (l : List MapId) (id : Byte) :
    l.foldl (fun acc n => if m < n && acc.panel.maps[n].panelId == id then unbindMap n acc else acc) s =
      unbindAll (l.filter fun n => m < n && s.panel.maps[n].panelId == id) s := by
  induction l generalizing s with
  | nil => rfl
  | cons n l ih =>
    rw [List.foldl_cons, List.filter_cons]
    split
    · rw [ih, (unbindMap_unbound n s).tables.1]
      rfl
    · exact ih s

theorem unbindAll_append (l l' : List MapId) : unbindAll (l ++ l') s = unbindAll l' (unbindAll l s) := List.foldl_append

theorem unbindForMap_eq : unbindForMap m old new s = unbindAll (takenMaps m old new s) s := by
  have own : (if old.panelId != new.panelId || old.listen != new.listen then unbindMap m s else s) =
      unbindAll (if old.panelId ≠ new.panelId ∨ old.listen ≠ new.listen then [m] else []) s := by
    simp only [Bool.or_eq_true, bne_iff_ne]
    split <;> rfl
  have maps : (unbindAll (if old.panelId ≠ new.panelId ∨ old.listen ≠ new.listen then [m] else []) s).panel.maps =
      s.panel.maps := by
    split
    · exact (unbindMap_unbound m s).tables.1
    · rfl
  unfold unbindForMap
  dsimp only
  rw [own, takenMaps, unbindAll_append]
  have test : (old.panelId != new.panelId && new.panelId != 0) = true ↔ old.panelId ≠ new.panelId ∧ new.panelId ≠ 0 := by
    rw [Bool.and_eq_true, bne_iff_ne, bne_iff_ne]
  by_cases h : old.panelId ≠ new.panelId ∧ new.panelId ≠ 0
  · rw [if_pos h, if_pos (test.2 h), ← maps]
    exact unbindHigher_eq ..
  · rw [if_neg h, if_neg fun x => h (test.1 x)]
    rfl

end

end Sys2Proof.Machine
end

section
/-! SUPPORT. The entries that act at once: KEYMAP, KEY, and the theorem of all five tables (O53). -/

namespace Sys2Proof.Machine

open Sys2Proof

/-! ### KEYMAP (R127, R128) -/

section
variable {i : Nat} {m : MapId} {k : KeyMap} {e : List Byte} {s : State}

theorem writeKeyMap_refused (hi : i < 8) (h : readKeyMap e = none) : writeKeyMap i e s = (s, .invalid) := by
  simp only [writeKeyMap, asFin_of_lt hi, h]

/-- R128: the key map stored. -/
def mapStored (m : MapId) (k : KeyMap) (s : State) : State := s.modPanel fun p => { p with maps := p.maps.set m k }

theorem writeKeyMap_stored (hi : i = m.val) (hr : readKeyMap e = some k) : writeKeyMap i e s =
    (mapStored m k (unbindAll (takenMaps m s.panel.maps[m] k s) s), .ok) := by
  subst hi
  rw [← unbindForMap_eq]
  simp only [writeKeyMap, asFin_val, hr]
  rfl

/-- R128: what the lines lost and the map stored leave. -/
theorem mapStored_unbound {l : List MapId} {t : State} (h : LinesUnbound l s t) :
    Only [.panel, .talk, .mix, .cells, .mgmt] s (mapStored m k t) ∧ (mapStored m k t).panel.maps = s.panel.maps.set m k ∧
    (mapStored m k t).panel.entries = s.panel.entries := by
  refine ⟨h.only.trans ((modPanel_only ..).mono (by decide)), ?_, h.tables.2⟩
  rw [← h.tables.1]
  rfl

end

/-! ### KEY (R129) -/

section
variable {i : Nat} {m : MapId} {k : KeyId} {x : KeyEntry} {e : List Byte} {s : State}

theorem writeKey_refused (hi : i < 256) (h : readKeyEntry e = none) : writeKey i e s = (s, .invalid) := by
  simp only [writeKey, asFin_of_lt hi, h]

/-- R129: the entry of a key stored. -/
def entryStored (m : MapId) (k : KeyId) (x : KeyEntry) (s : State) : State :=
  s.modPanel fun p => { p with entries := p.entries.set (keyIx m k) x }

theorem writeKey_stored (hi : i = m.val * 32 + k.val) (hr : readKeyEntry e = some x) : writeKey i e s =
    (entryStored m k x (if (boundLine s.panel m).isSome then modKey m k keyAfterWrite (setActive m k false s) else s),
      .ok) := by
  have index : asFin 256 i = some (keyIx m k) := hi ▸ asFin_val (keyIx m k)
  have own : (⟨(keyIx m k).val / 32, by omega⟩ : MapId) = m := Fin.ext (by simp only [keyIx]; omega)
  have key : (⟨(keyIx m k).val % 32, by omega⟩ : KeyId) = k := Fin.ext (by simp only [keyIx]; omega)
  simp only [writeKey, index, hr, own, key]
  rfl

theorem writeKey_unbound (hi : i = m.val * 32 + k.val) (hr : readKeyEntry e = some x) (free : boundLine s.panel m = none) :
    writeKey i e s = (entryStored m k x s, .ok) := by
  rw [writeKey_stored hi hr, free]
  rfl

theorem writeKey_bound (hi : i = m.val * 32 + k.val) (hr : readKeyEntry e = some x) (bound : (boundLine s.panel m).isSome) :
    writeKey i e s = (entryStored m k x (modKey m k keyAfterWrite (setActive m k false s)), .ok) := by
  rw [writeKey_stored hi hr, if_pos bound]

/-- R129: the key of a bound map ends by its old entry, and its state but the conditioned input is cleared. -/
theorem keyRewritten (m : MapId) (k : KeyId) (x : KeyEntry) (s : State) :
    let u := entryStored m k x (modKey m k keyAfterWrite (setActive m k false s))
    let ended := setActive m k false s
    let cleared := keyAfterWrite (keyState s m k)
    Only [.panel, .talk, .mix, .cells, .mgmt] s u ∧ u.panel.entries = s.panel.entries.set (keyIx m k) x ∧
    u.panel.lines = s.panel.lines ∧ u.panel.maps = s.panel.maps ∧
    (∀ n, n ≠ keyIx m k → u.panel.keys[n] = s.panel.keys[n]) ∧ keyState u m k = cleared ∧
    u = { ended with panel := { ended.panel with
      entries := s.panel.entries.set (keyIx m k) x, keys := ended.panel.keys.set (keyIx m k) cleared } } := by
  intro u ended cleared
  have ends : KeysEnd m (· = k) s ended := setActive_off m k s
  have same : keyAfterWrite (keyState ended m k) = cleared := by
    obtain ⟨cond, run⟩ := ends.input (keyIx m k)
    unfold keyAfterWrite
    rw [keyState, cond, run]
    rfl
  have entries : ended.panel.entries = s.panel.entries := by rw [ends.panel]
  have lines : ended.panel.lines = s.panel.lines := by rw [ends.panel]
  have maps : ended.panel.maps = s.panel.maps := by rw [ends.panel]
  have whole : u = { ended with panel := { ended.panel with
      entries := s.panel.entries.set (keyIx m k) x, keys := ended.panel.keys.set (keyIx m k) cleared } } := by
    rw [← entries, ← same]
    rfl
  refine ⟨?_, ?_, ?_, ?_, fun n hn => ?_, ?_, whole⟩
  · have changed : Only [.panel, .talk, .mix, .cells, .mgmt] ended u :=
      ((modKey_only ..).mono (by decide)).trans ((modPanel_only ..).mono (by decide))
    exact ends.only.trans changed
  · rw [whole]
  · rw [whole]
    exact lines
  · rw [whole]
    exact maps
  · rw [whole]
    exact ((vset_get ..).trans (if_neg hn.symm)).trans (ends.keys n fun j hj => hj ▸ hn)
  · rw [whole]
    exact (vset_get ..).trans (if_pos rfl)

end

theorem sourceOptBytes_length (x : Option Source) : (sourceOptBytes x).length = 2 := by
  obtain ⟨a, b, hx, -⟩ := sourceOptBytes_pair x
  rw [hx]
  rfl

/-! ### The five tables -/

/-- Settles O53: every SET is judged by its table's rules (`setEntry_written`): the schedule (`writeSched_length`,
`writeSched_class`), the mix outputs (`writeMix_effect`), the key maps (`unbindAll_unbound`, `unbindAll_one`), the keys
(`keyRewritten`) and the tally map (`writeTallymap_effect`), each with what its reader refuses. -/
theorem runningEntriesWritten : Obligations.RunningEntriesWritten := by
  intro s src tag i fresh ok no noPoint noSource
  refine ⟨fun w => ⟨fun n h1 h32 hi => ?_, fun n k hi => ?_, fun x bad => ?_⟩,
    fun w m ifb point own subs pad talk listen full dim step prog threshold last hi few distinct padded three => ?_,
    fun w hi e long => ?_, fun w m k hi => ?_, fun w hi e long bad => ?_, fun w m k e hi lawful => ?_, fun w hi e long => ?_,
    fun w j call terms pad hi few padded => ?_, fun w hi e long bad => ?_⟩
  · refine setEntry_written fresh w ((if_neg (Nat.lt_irrefl 1)).trans ?_)
    rw [hi]
    exact writeSched_length h1 h32
  · refine setEntry_written fresh w ((if_neg (by cases k <;> decide)).trans ?_)
    rw [hi]
    exact writeSched_class n k
  · refine setEntry_written fresh w ((if_neg (Nat.lt_irrefl 1)).trans (writeSched_refused ?_))
    exact bad.imp_left fun ⟨hi, h⟩ => ⟨hi ▸ rfl, h⟩
  · intro e old full' dim'
    have long : ¬e.length < entrySize .mix := by
      have size : e.length = 25 := by
        simp [e, pointBytes_length, sourceOptBytes_length, halfBytes, b16, three]
        omega
      rw [size]
      decide
    obtain ⟨u, hw, effect⟩ := writeMix_effect (s := s) hi
      (readMix_layout ifb point own talk listen full dim step prog threshold (e := e) rfl few distinct padded)
    exact ⟨u, setEntry_written fresh w ((if_neg long).trans hw), effect⟩
  · intro n bad
    exact setEntry_written fresh w ((if_neg (Nat.not_lt.2 long)).trans
      (writeMix_refused hi fun old => readMix_refused long bad))
  · intro old bound lost stored served
    have size : ¬(keyMapBytes k).length < entrySize .keymap := by
      simp [keyMapBytes, pointBytes_length, entrySize]
    have written : served = ok (stored (unbindAll (takenMaps m old k s) s)) :=
      setEntry_written fresh w ((if_neg size).trans (writeKeyMap_stored hi (readKeyMap_keyMapBytes k)))
    have lost_iff : ∀ n j, lost n j ↔ boundLine s.panel n = some j ∧ n ∈ takenMaps m old k s := fun n j => by
      rw [boundLine_some, mem_takenMaps, and_assoc]
      rfl
    have distinct := takenMaps_nodup m old k s
    have unbound := unbindAll_unbound distinct s
    obtain ⟨only, maps, entries⟩ := mapStored_unbound (m := m) (k := k) unbound
    have free_of : ∀ n, (∀ j, boundLine s.panel n ≠ some j) → boundLine s.panel n = none := fun n =>
      Option.eq_none_iff_forall_ne_some.2
    refine ⟨fun free => ?_, fun n j hn single => ?_, _, written, only, maps, entries, fun j => ⟨?_, ?_⟩, fun o e => ?_⟩
    · rw [written, unbindAll_none fun n hn => free_of n fun j hj => free n j ((lost_iff n j).2 ⟨hj, hn⟩)]
    · obtain ⟨hb, taken⟩ := (lost_iff n j).1 hn
      refine ⟨_, loseLine_lost j (s.panel.lines[j].panelId.getD 0) s, ?_⟩
      rw [written, unbindAll_one distinct taken hb fun n' hn' other =>
        free_of n' fun j' hj' => other (single n' j' ((lost_iff n' j').2 ⟨hj', hn'⟩))]
    · rintro ⟨n, hn⟩
      obtain ⟨hb, taken⟩ := (lost_iff n j).1 hn
      exact unbound.lost n taken j hb
    · exact fun free => unbound.stands j fun n taken hb => free n ((lost_iff n j).2 ⟨hb, taken⟩)
    · refine (unbound.origins o e).trans (and_congr_right fun _ => forall_congr' fun j => ?_)
      rw [lost_iff, and_comm]
  · exact setEntry_written fresh w ((if_neg (Nat.not_lt.2 long)).trans (writeKeyMap_refused hi (readKeyMap_refused bad)))
  · intro bound
    have size : ¬(keyEntryBytes e).length < entrySize .key := by
      simp [keyEntryBytes, keyFnBytes_length, entrySize]
    have bound_iff : bound ↔ (boundLine s.panel m).isSome := by
      rw [Option.isSome_iff_ne_none, Ne, boundLine_none, not_forall_not]
      rfl
    refine ⟨fun free => ?_, fun isBound => ?_⟩
    · have none : boundLine s.panel m = none := boundLine_none.2 fun j hj => free ⟨j, hj⟩
      exact setEntry_written fresh w ((if_neg size).trans (writeKey_unbound hi lawful none))
    · obtain ⟨only, entries, lines, maps, keys, own, whole⟩ := keyRewritten m k e s
      exact ⟨_, setEntry_written fresh w ((if_neg size).trans (writeKey_bound hi lawful (bound_iff.1 isBound))), only, entries,
        lines, maps, keys, own, fun off => if_pos off, whole⟩
  · intro f id bad
    refine setEntry_written fresh w ((if_neg (Nat.not_lt.2 long)).trans (writeKey_refused hi (readKeyEntry_refused ?_)))
    rcases bad with h | h | h | h | h | h | h
    · exact .inl (readKeyFn_refused (.inl h))
    · exact .inl (readKeyFn_refused (.inr (.inl h)))
    · exact .inl (readKeyFn_refused (.inr (.inr (.inl h))))
    · exact .inl (readKeyFn_refused (.inr (.inr (.inr (.inl h)))))
    · exact .inl (readKeyFn_refused (.inr (.inr (.inr (.inr (.inl h))))))
    · exact .inl (readKeyFn_refused (.inr (.inr (.inr (.inr (.inr h))))))
    · exact .inr h
  · intro e r
    have laidOut : e = [b8 terms.length] ++ pointBytes call ++ terms.flatMap termLayout ++ pad := rfl
    have size : ¬e.length < entrySize .tallymap := by
      have runs : (terms.flatMap termLayout).length = 5 * terms.length := by
        simp [List.length_flatMap, termLayout, Nat.mul_comm]
      rw [laidOut]
      simp only [List.length_append, runs, pointBytes_length, List.length_singleton, entrySize]
      omega
    have read : readTallyRec e = some r := by
      rw [laidOut, readTallyRec_layout call pad few]
      refine congrArg (fun terms => some (TallyRec.mk terms call)) (List.map_congr_left fun x _ => ?_)
      obtain ⟨bus, id, air, kind, a, b⟩ := x
      match kind with
      | 0 | 1 | 2 => rfl
    obtain ⟨u, hw, effect⟩ := writeTallymap_effect (s := s) hi read
    exact ⟨u, setEntry_written fresh w ((if_neg size).trans hw), effect⟩
  · exact setEntry_written fresh w ((if_neg (Nat.not_lt.2 long)).trans (writeTallymap_refused hi (readTallyRec_refused bad)))

end Sys2Proof.Machine
end

section
/-! SUPPORT. Takes and protection requests: what the tests of R68 make of the pairs, what an accepted take leaves, and the
requests that ask for them (O57, O58). -/

namespace Sys2Proof.Machine

open Sys2Proof

-- One theorem after another: all files together, as one text, elaborate on more threads than the memory limit lets run.
set_option Elab.async false

/-! ### The tests of a pair (R68, R72) -/

theorem takeRefusal_none {p : Protection} {q : Byte} : takeRefusal p q = none ↔ p = .free ∨ p = .protectedBy q := by
  cases p with
  | protectedBy o => by_cases h : o = q <;> simp [takeRefusal, h]
  | _ => simp [takeRefusal]

theorem takeRefusal_another {o q : Byte} (h : o ≠ q) : takeRefusal (.protectedBy o) q = some .protectedBy := if_neg h

section
variable {r : Router} {q : Byte} {seen : List DestId} {p : Byte × Half} {d : DestId} {x : Source}

theorem judgePair_range (h : 64 ≤ p.1.toNat) : judgePair r q seen p = .fail .range := by
  simp only [judgePair, asFin_none h]

theorem judgePair_noSource (h : p.1.toNat < 64) (hx : readSource p.2 = none) : judgePair r q seen p = .fail .invalid := by
  simp only [judgePair, asFin_of_lt h, hx]

theorem judgePair_seen (hd : p.1.toNat = d.val) (hx : readSource p.2 = some x) (hs : d ∈ seen) :
    judgePair r q seen p = .fail .invalid := by
  simp only [judgePair, hd, asFin_val, hx, if_pos hs]

theorem judgePair_guarded {c : Code} (hd : p.1.toNat = d.val) (hx : readSource p.2 = some x) (hs : d ∉ seen)
    (hc : takeRefusal r.routes[d].prot q = some c) : judgePair r q seen p = .guarded c d := by
  simp only [judgePair, hd, asFin_val, hx, if_neg hs, hc]

theorem judgePair_pass (hd : p.1.toNat = d.val) (hx : readSource p.2 = some x) (hs : d ∉ seen)
    (hc : takeRefusal r.routes[d].prot q = none) : judgePair r q seen p = .pass d x := by
  simp only [judgePair, hd, asFin_val, hx, if_neg hs, hc]

/-- R68, R72: a pair that passes names a destination whose protection lets the requester take it. -/
theorem judgePair_allowed (h : judgePair r q seen p = .pass d x) : takeRefusal r.routes[d].prot q = none := by
  unfold judgePair at h
  split at h
  · cases h
  · split at h
    · cases h
    · split at h
      · cases h
      · split at h
        · cases h
        · next allowed =>
          cases h
          exact allowed

end

/-! ### The tests of a whole request (R68) -/

section
variable {r : Router} {q : Byte} {acc qs : List (DestId × Source)} {p : Byte × Half} {ps : List (Byte × Half)} {c : Code}
  {d : DestId}

theorem judgePairs_fail (h : judgePair r q (acc.map (·.1)) p = .fail c) :
    judgePairs r q acc (p :: ps) = .fail c acc.length none := by
  rw [judgePairs, h]

theorem judgePairs_guarded (h : judgePair r q (acc.map (·.1)) p = .guarded c d) :
    judgePairs r q acc (p :: ps) = .fail c acc.length (some d) := by
  rw [judgePairs, h]

/-- R68: every pair of an accepted request was allowed by its destination's protection. -/
theorem judgePairs_allowed (ha : ∀ y ∈ acc, takeRefusal r.routes[y.1].prot q = none)
    (h : judgePairs r q acc ps = .pass qs) : ∀ y ∈ qs, takeRefusal r.routes[y.1].prot q = none := by
  induction ps generalizing acc with
  | nil =>
    cases h
    exact fun y hy => ha y (List.mem_reverse.1 hy)
  | cons p ps ih =>
    rw [judgePairs] at h
    split at h
    · cases h
    · cases h
    · next passed => exact ih (List.forall_mem_cons.2 ⟨judgePair_allowed passed, ha⟩) h

/-- R68: pair `p` spells a destination and a source, and the destination's protection lets `q` take it. -/
def Spells (r : Router) (q : Byte) (p : Byte × Half) (y : DestId × Source) : Prop :=
  p.1.toNat = y.1.val ∧ readSource p.2 = some y.2 ∧ (r.routes[y.1].prot = .free ∨ r.routes[y.1].prot = .protectedBy q)

/-- R68: pairs that spell distinct destinations pass, and the tests go on behind them. -/
theorem judgePairs_spelled {rest : List (Byte × Half)} (h : List.Forall₂ (Spells r q) ps qs)
    (distinct : ((acc.reverse ++ qs).map (·.1)).Nodup) :
    judgePairs r q acc (ps ++ rest) = judgePairs r q (qs.reverse ++ acc) rest := by
  induction h generalizing acc with
  | nil => rfl
  | @cons p y ps qs spelled _ ih =>
    obtain ⟨dest, source, free⟩ := spelled
    have unseen : y.1 ∉ acc.map (·.1) := fun seen => by
      rw [List.map_append, List.map_cons, List.nodup_append] at distinct
      refine distinct.2.2 y.1 ?_ y.1 List.mem_cons_self rfl
      rwa [List.map_reverse, List.mem_reverse]
    rw [List.cons_append, judgePairs, judgePair_pass dest source unseen (takeRefusal_none.2 free)]
    dsimp only
    rw [ih (by simpa using distinct), List.reverse_cons, List.append_assoc]
    rfl

/-- R68: the tests of a whole request of pairs that spell distinct destinations. -/
theorem judgePairs_good (h : List.Forall₂ (Spells r q) ps qs) (distinct : (qs.map (·.1)).Nodup) :
    judgePairs r q [] ps = .pass qs := by
  have tested := judgePairs_spelled (acc := []) (rest := []) h distinct
  rw [List.append_nil, List.append_nil] at tested
  rw [tested, judgePairs, List.reverse_reverse]

/-- R68: the tests come to the pair behind the good ones. -/
theorem judgePairs_first {post : List (Byte × Half)} (h : List.Forall₂ (Spells r q) ps qs)
    (distinct : (qs.map (·.1)).Nodup) :
    judgePairs r q [] (ps ++ p :: post) = judgePairs r q qs.reverse (p :: post) := by
  rw [judgePairs_spelled (acc := []) h distinct, List.append_nil]

end

/-! ### An accepted take (R69) -/

theorem vof_entries {α : Type} {n : Nat} (v : Vector α n) : (vof n fun i => v[i]) = v := by
  ext i hi
  simp

/-- R69: the entry of destination `d` when the pairs `qs` are taken by `q` for target `t`. -/
def takenEntry (q : Byte) (t : Target) (qs : List (DestId × Source)) (r : Router) (d : DestId) : RouteEntry :=
  match qs.find? fun y => y.1 == d with
  | some y => { r.routes[d] with pending := some { source := y.2, target := t, requester := q } }
  | none => r.routes[d]

/-- R69: every pair has set the pending part of its destination. -/
def routesTaken (q : Byte) (t : Target) (qs : List (DestId × Source)) (s : State) : State :=
  { s with router := { s.router with routes := vof 64 (takenEntry q t qs s.router) } }

theorem takenEntry_cons {q : Byte} {t : Target} {y : DestId × Source} {qs : List (DestId × Source)}
    (first : y.1 ∉ qs.map (·.1)) (s : State) (d : DestId) :
    takenEntry q t (y :: qs) s.router d = takenEntry q t qs (setPending q t y s).router d := by
  have entry : (setPending q t y s).router.routes[d] = if y.1 = d
      then { s.router.routes[y.1] with pending := some { source := y.2, target := t, requester := q } }
      else s.router.routes[d] := vmod_get ..
  unfold takenEntry
  rw [List.find?_cons, entry]
  by_cases h : y.1 = d
  · subst h
    have later : qs.find? (fun x => x.1 == y.1) = none := by
      rw [List.find?_eq_none]
      intro x hx same
      exact first (List.mem_map.2 ⟨x, hx, by simpa using same⟩)
    simp [later]
  · rw [beq_eq_false_iff_ne.2 h, if_neg h]

theorem setPendings_eq (q : Byte) (t : Target) {qs : List (DestId × Source)} (distinct : (qs.map (·.1)).Nodup)
    (s : State) :
    qs.foldl (fun acc y => setPending q t y acc) s = routesTaken q t qs s := by
  induction qs generalizing s with
  | nil =>
    have same : vof 64 (takenEntry q t [] s.router) = s.router.routes := vof_entries _
    rw [routesTaken, same]
    rfl
  | cons y qs ih =>
    obtain ⟨first, distinct⟩ := List.nodup_cons.1 distinct
    rw [List.foldl_cons, ih distinct, routesTaken, routesTaken, funext (takenEntry_cons (q := q) (t := t) first s)]
    rfl

/-- R38: a target is late against an epoch. -/
def Late (e : Option Epoch) (t : Target) : Prop :=
  match t, e with
  | .epoch t, some c => (t.toNat + 256 - c.toNat) % 256 = 0 ∨ 128 ≤ (t.toNat + 256 - c.toNat) % 256
  | _, _ => False

theorem isLate_iff {e : Option Epoch} {t : Target} : isLate e t = true ↔ Late e t := by
  cases t with
  | next => cases e <;> simp [isLate, Late]
  | epoch t =>
    cases e with
    | none => simp [isLate, Late]
    | some c => exact isLate_epoch c t

section
variable {q : Byte} {t : Target} {qs : List (DestId × Source)} {s : State}

theorem acceptTake_early (distinct : (qs.map (·.1)).Nodup) (h : ¬Late s.sp.epoch t) : acceptTake q qs t s =
    (routesTaken q t qs s, { code := if countPending s.router qs = 0 then .ok else .replaced, pair := none,
                             replaced := countPending s.router qs, target := some t }) := by
  have early : isLate s.sp.epoch t = false := by simpa [← isLate_iff] using h
  have code : (if 0 < countPending s.router qs then Code.replaced else .ok) =
      if countPending s.router qs = 0 then .ok else .replaced := by
    split <;> split <;> first | rfl | omega
  simp only [acceptTake, early, heldTarget_early early, setPendings_eq q t distinct, Bool.false_eq_true, if_false, code]

theorem acceptTake_late (distinct : (qs.map (·.1)).Nodup) (h : Late s.sp.epoch t) : acceptTake q qs t s =
    (report .takeLate ([q] ++ targetBytes t ++ epochBytes s.sp.epoch) (routesTaken q .next qs s),
      { code := .late, pair := none, replaced := countPending s.router qs, target := some .next }) := by
  have late := isLate_iff.2 h
  simp only [acceptTake, late, heldTarget_late late, setPendings_eq q .next distinct, if_true]
  rfl

end

/-! ### TAKE (R67, R211) -/

section
variable {src tag : Byte} {m : TakeMsg} {s : State}

theorem takeRequest_malformed
    (h : m.count = 0 ∨ 8 < m.count.toNat ∨ 2 ≤ m.mode.toNat ∨ m.pairs.length < m.count.toNat) :
    takeRequest src m s = (s, refuseTake .invalid none) := by
  unfold takeRequest
  dsimp only
  split
  · rfl
  · next target =>
    have known : ¬2 ≤ m.mode.toNat := fun h => by
      rw [readTarget_unknown h] at target
      cases target
    refine if_pos ?_
    rcases h with h | h | h | h
    · simp [h]
    · simp [h]
    · exact absurd h known
    · simp [h]

theorem takeRequest_judged {t : Target} (h1 : 1 ≤ m.count.toNat) (h8 : m.count.toNat ≤ 8)
    (hl : m.count.toNat ≤ m.pairs.length) (ht : readTarget m.mode m.epoch = some t) :
    takeRequest src m s = routerTake src (m.pairs.take m.count.toNat) t s := by
  have formed : ¬(m.count.toNat = 0 ∨ 8 < m.count.toNat) ∧ ¬m.pairs.length < m.count.toNat := by omega
  simp only [takeRequest, ht]
  exact if_neg (by simpa using formed)

theorem readTarget_known {mode : Byte} (h : mode.toNat ≤ 1) (epoch : Byte) : ∃ t, readTarget mode epoch = some t := by
  have known : mode = 0 ∨ mode = 1 := by
    have : mode.toNat = 0 ∨ mode.toNat = 1 := by omega
    exact this.imp (fun h => BitVec.eq_of_toNat_eq h) fun h => BitVec.eq_of_toNat_eq h
  rcases known with rfl | rfl
  · exact ⟨_, rfl⟩
  · exact ⟨_, rfl⟩

/-- R67, R189: a TAKE served for the first time is answered as the router answers it. -/
theorem take_served {u : State} {a : TakeAnswer} (fresh : Fresh s src tag 4) (h : takeRequest src m s = (u, a)) :
    exec (.take src tag m) s = .next (replied src tag 4 a.code (takeAnswer a).fields u) := by
  have served := request_fresh (r := .take m) fresh rfl
  have given : serve src (.take m) s = (u, takeAnswer a) := by
    show serveTake src m s = _
    rw [serveTake, h]
  rw [given] at served
  exact served

theorem routerTake_pass {ps : List (Byte × Half)} {qs : List (DestId × Source)} {t : Target}
    (h : judgePairs s.router src [] ps = .pass qs) : routerTake src ps t s = acceptTake src qs t s := by
  simp only [routerTake, h]

theorem routerTake_fail {ps : List (Byte × Half)} {c : Code} {i : Nat} {t : Target}
    (h : judgePairs s.router src [] ps = .fail c i none) : routerTake src ps t s = (s, refuseTake c (some i)) := by
  simp only [routerTake, h]

theorem routerTake_guarded {ps : List (Byte × Half)} {c : Code} {i : Nat} {d : DestId} {t : Target}
    (h : judgePairs s.router src [] ps = .fail c i (some d)) :
    routerTake src ps t s = (recordRefusal d src s, refuseTake c (some i)) := by
  simp only [routerTake, h]

end

/-- Settles O57: a malformed request by `takeRequest_malformed`, an accepted one by `judgePairs_good` and what
`acceptTake` leaves, a refused one by the tests of its first failing pair (`judgePairs_first`). -/
theorem takesServed : Obligations.TakesServed := by
  intro s src tag m fresh r open_ spells good
  refine ⟨fun bad => (take_served fresh (takeRequest_malformed bad)).trans rfl,
    fun h1 h8 hl => ⟨fun qs t ⟨spelled, distinct⟩ ht => ?_, fun pre p post qs hps ⟨spelled, distinct⟩ hm => ?_⟩⟩
  · intro late replaced held
    have judged : takeRequest src m s = acceptTake src qs t s :=
      (takeRequest_judged h1 h8 hl ht).trans (routerTake_pass (judgePairs_good spelled distinct))
    exact ⟨fun early => (take_served fresh (judged.trans (acceptTake_early distinct early))).trans rfl,
      fun late => (take_served fresh (judged.trans (acceptTake_late distinct late))).trans rfl⟩
  · intro no
    obtain ⟨t, ht⟩ := readTarget_known hm m.epoch
    have first := judgePairs_first (p := p) (post := post) spelled distinct
    have length : qs.reverse.length = pre.length := by rw [List.length_reverse, spelled.length_eq]
    have seen : ∀ d, d ∈ qs.reverse.map (·.1) ↔ d ∈ qs.map (·.1) := fun d => by
      rw [List.map_reverse, List.mem_reverse]
    have fails : ∀ c, judgePair r src (qs.reverse.map (·.1)) p = .fail c → no c s := fun c h => by
      have failed : takeRequest src m s = (s, refuseTake c (some pre.length)) := by
        rw [takeRequest_judged h1 h8 hl ht, hps]
        exact routerTake_fail (first.trans (length ▸ judgePairs_fail h))
      exact (take_served fresh failed).trans rfl
    have guarded : ∀ c d, judgePair r src (qs.reverse.map (·.1)) p = .guarded c d → no c (recordRefusal d src s) :=
      fun c d h => by
        have failed : takeRequest src m s = (recordRefusal d src s, refuseTake c (some pre.length)) := by
          rw [takeRequest_judged h1 h8 hl ht, hps]
          exact routerTake_guarded (first.trans (length ▸ judgePairs_guarded h))
        exact (take_served fresh failed).trans rfl
    refine ⟨fun h => fails _ (judgePair_range h), fun h hx => fails _ (judgePair_noSource h hx), fun d x hd hx => ?_⟩
    refine ⟨fun h => fails _ (judgePair_seen hd hx ((seen d).2 h)), fun h => ?_⟩
    have refused : ∀ c, takeRefusal r.routes[d].prot src = some c → no c (recordRefusal d src s) := fun c hc =>
      guarded c d (judgePair_guarded hd hx (fun hs => h ((seen d).1 hs)) hc)
    exact ⟨fun o ho hp => refused _ (hp ▸ takeRefusal_another ho), fun o hp => refused _ (by rw [hp]; rfl),
      fun hp => refused _ (by rw [hp]; rfl)⟩

/-! ### PROTECT, RELEASE, AIRLOCK (R72 to R75) -/

theorem protectRefusal_mine (again : Bool) {p : Protection} {q : Byte}
    (h : p = .free ∨ p = .protectedBy q ∨ p = .lockedBy q) :
    protectRefusal again p q = none := by
  rcases h with rfl | rfl | rfl
  · rfl
  · exact if_pos rfl
  · exact if_pos rfl

theorem protectRefusal_another (again : Bool) {p : Protection} {q : Byte}
    (h : ∃ o, o ≠ q ∧ (p = .protectedBy o ∨ p = .lockedBy o)) : protectRefusal again p q = some .protectedBy := by
  obtain ⟨o, other, rfl | rfl⟩ := h
  · exact if_neg other
  · exact if_neg other

section
variable {src tag dest : Byte} {s : State} {d : DestId}

theorem onDestination_range (act : DestId → State × ProtectAnswer) (h : 64 ≤ dest.toNat) :
    onDestination dest act s = (s, { code := .range, prot := none }) := by
  rw [onDestination, asFin_none h]

theorem onDestination_some (act : DestId → State × ProtectAnswer) (h : dest.toNat = d.val) :
    onDestination dest act s = act d := by
  rw [onDestination, h, asFin_val]

/-- R72, R189: a protection request served for the first time: an accepted one is answered with the destination's
protection, a refused one with its code alone (log 28). -/
theorem protection_served {req : Request} {x : State × ProtectAnswer} (fresh : Fresh s src tag (requestCode req))
    (hp : isPage1 req = false) (h : serve src req s = protectAnswer dest x) :
    request src tag req s = .next (replied src tag (requestCode req) x.2.code
      (if x.2.code = .ok then protectionFields dest x.2.prot else []) x.1) := by
  rw [request_fresh fresh hp, h]
  rfl

section
variable {again : Bool} {f : RouteEntry → RouteEntry}

theorem protectRequest_accepted (h : protectRefusal again s.router.routes[d].prot src = none) :
    protectRequest again src d f s = (modRoute d f s, { code := .ok, prot := some (f s.router.routes[d]).prot }) :=
  (protectRequest_spec ..).2 h

theorem protectRequest_refused {c : Code} (h : protectRefusal again s.router.routes[d].prot src = some c) :
    protectRequest again src d f s = (recordRefusal d src s, { code := c, prot := some s.router.routes[d].prot }) :=
  (protectRequest_spec ..).1 c h

/-- R72: whatever a protection request comes to, it answers the protection that then stands. -/
theorem protectRequest_shown : (protectRequest again src d f s).2.prot =
    some (protectRequest again src d f s).1.router.routes[d].prot := by
  unfold protectRequest
  split <;> rfl

end

theorem routerProtect_known {mode : Byte} (hd : dest.toNat = d.val) (hm : mode.toNat ≤ 1) :
    routerProtect src dest mode s = protectRequest false src d (protectEntry (mode == 1) src) s :=
  (onDestination_some _ hd).trans (if_neg (Nat.not_lt.2 hm))

theorem routerProtect_unknown {mode : Byte} (hd : dest.toNat = d.val) (hm : 2 ≤ mode.toNat) :
    routerProtect src dest mode s = (s, { code := .invalid, prot := some s.router.routes[d].prot }) :=
  (onDestination_some _ hd).trans (if_pos hm)

theorem routerRelease_known (hd : dest.toNat = d.val) :
    routerRelease src dest s = protectRequest false src d (fun e => { e with prot := .free }) s :=
  onDestination_some _ hd

theorem routerAirlock_known (hd : dest.toNat = d.val) :
    routerAirlock src dest s = protectRequest true src d (fun e => { e with prot := .airlocked, pending := none }) s :=
  onDestination_some _ hd

end

/-- Settles O58: each request by the destination's protection (`protectRefusal_mine`, `protectRefusal_another`), answered as
`protection_served` says. -/
theorem protectionServed : Obligations.ProtectionServed := by
  intro s src tag dest r set told mine another
  refine ⟨fun fresh mode => ?_, fun fresh => ?_, fun fresh => ?_, fun d mode hd => ?_⟩
  · have served : ∀ x, routerProtect src dest mode s = x → exec (.protect src tag dest mode) s = .next (replied src tag 5
        x.2.code (if x.2.code = .ok then protectionFields dest x.2.prot else []) x.1) := fun x hx =>
      protection_served (req := .protect dest mode) fresh rfl (congrArg (protectAnswer dest) hx)
    refine ⟨fun h => (served _ (onDestination_range _ h)).trans rfl, fun d hd =>
      ⟨fun h => (served _ (routerProtect_unknown hd h)).trans rfl, fun hm own => ?_, fun hm own => ?_,
        fun hm h => ?_, fun hm h => ?_⟩⟩
    · subst hm
      exact (served _ ((routerProtect_known hd (by decide)).trans
        (protectRequest_accepted (protectRefusal_mine false own)))).trans rfl
    · subst hm
      exact (served _ ((routerProtect_known hd (by decide)).trans
        (protectRequest_accepted (protectRefusal_mine false own)))).trans rfl
    · exact (served _ ((routerProtect_known hd hm).trans
        (protectRequest_refused (protectRefusal_another false h)))).trans rfl
    · exact (served _ ((routerProtect_known hd hm).trans
        (protectRequest_refused (c := .locked) (by rw [h]; rfl)))).trans rfl
  · have served : ∀ x, routerRelease src dest s = x → exec (.release src tag dest) s = .next (replied src tag 6
        x.2.code (if x.2.code = .ok then protectionFields dest x.2.prot else []) x.1) := fun x hx =>
      protection_served (req := .release dest) fresh rfl (congrArg (protectAnswer dest) hx)
    refine ⟨fun h => (served _ (onDestination_range _ h)).trans rfl,
      fun d hd => ⟨fun own => ?_, fun h => ?_, fun h => ?_⟩⟩
    · exact (served _ ((routerRelease_known hd).trans (protectRequest_accepted (protectRefusal_mine false own)))).trans rfl
    · exact (served _ ((routerRelease_known hd).trans (protectRequest_refused (protectRefusal_another false h)))).trans rfl
    · exact (served _ ((routerRelease_known hd).trans (protectRequest_refused (c := .locked) (by rw [h]; rfl)))).trans rfl
  · have served : ∀ x, routerAirlock src dest s = x → exec (.airlock src tag dest) s = .next (replied src tag 7
        x.2.code (if x.2.code = .ok then protectionFields dest x.2.prot else []) x.1) := fun x hx =>
      protection_served (req := .airlock dest) fresh rfl (congrArg (protectAnswer dest) hx)
    refine ⟨fun h => (served _ (onDestination_range _ h)).trans rfl, fun d hd => ⟨fun own => ?_, fun h => ?_⟩⟩
    · have allowed : protectRefusal true s.router.routes[d].prot src = none := by
        rcases own with own | airlocked
        · exact protectRefusal_mine true own
        · rw [airlocked]
          rfl
      exact (served _ ((routerAirlock_known hd).trans (protectRequest_accepted allowed))).trans rfl
    · exact (served _ ((routerAirlock_known hd).trans (protectRequest_refused (protectRefusal_another true h)))).trans rfl
  · refine ⟨?_, ?_, ?_⟩
    · by_cases hm : mode.toNat ≤ 1
      · rw [routerProtect_known hd hm]
        exact protectRequest_shown
      · rw [routerProtect_unknown hd (by omega)]
    · rw [routerRelease_known hd]
      exact protectRequest_shown
    · rw [routerAirlock_known hd]
      exact protectRequest_shown

end Sys2Proof.Machine
end

section
/-! SUPPORT. What a step can do to the route table, said once of every command; and that it keeps the insert slots distinct
and the pending parts lawful (O9). -/

namespace Sys2Proof.Machine

open Sys2Proof

-- One theorem after another: all files together, as one text, elaborate on more threads than the memory limit lets run.
set_option Elab.async false

/-! ### What stands of the route table -/

/-- R62, R65, R72: on the way from `s` to `t` no two insert entries come to name one slot, and no destination comes to hold a
pending part that its protection forbids. -/
structure RoutesHeld (s t : State) : Prop where
  slots : SlotsUnique s.router → SlotsUnique t.router
  pendings : PendingsLawful s.router → PendingsLawful t.router

/-- R72: the entry holds no pending part that its protection forbids. -/
def PendingLawful (e : RouteEntry) : Prop :=
  match e.prot with
  | .free => True
  | .protectedBy o => ∀ p, e.pending = some p → p.requester = o
  | .lockedBy _ => e.pending = none
  | .airlocked => e.pending = none

theorem pendingsLawful_iff (r : Router) : PendingsLawful r ↔ ∀ d : DestId, PendingLawful r.routes[d] := Iff.rfl

/-- R72: no protection forbids that nothing is pending. -/
theorem pendingLawful_none {e : RouteEntry} (h : e.pending = none) : PendingLawful e := by
  unfold PendingLawful
  split
  · trivial
  · intro p hp
    rw [h] at hp
    cases hp
  · exact h
  · exact h

section
variable {s t u : State}

theorem RoutesHeld.refl (s : State) : RoutesHeld s s := ⟨id, id⟩

theorem RoutesHeld.trans (h : RoutesHeld s t) (g : RoutesHeld t u) : RoutesHeld s u :=
  ⟨g.slots ∘ h.slots, g.pendings ∘ h.pendings⟩

theorem RoutesHeld.ite {p : Prop} [Decidable p] (h : p → RoutesHeld s t) (g : ¬p → RoutesHeld s u) :
    RoutesHeld s (if p then t else u) := by
  split
  · exact h ‹_›
  · exact g ‹_›

theorem RoutesHeld.foldl {α : Type} {f : State → α → State} (h : ∀ s x, RoutesHeld s (f s x)) (l : List α) (s : State) :
    RoutesHeld s (l.foldl f s) :=
  foldl_keeps (fun a x _ g => g.trans (h a x)) (.refl s)

theorem RoutesHeld.forFin {n : Nat} {f : Fin n → State → State} (h : ∀ i s, RoutesHeld s (f i s)) (s : State) :
    RoutesHeld s (forFin n f s) :=
  .foldl (fun s i => h i s) _ s

theorem RoutesHeld.of_routes (h : t.router.routes = s.router.routes) : RoutesHeld s t :=
  ⟨fun g => by rwa [SlotsUnique, h], fun g => by rwa [PendingsLawful, h]⟩

/-- A step of other blocks leaves the routes. -/
theorem Only.routesHeld {bs : List Block} (h : Only bs s t) (hb : Block.router ∉ bs := by decide) : RoutesHeld s t :=
  .of_routes (congrArg Router.routes (h.keep .router hb))

/-- Every insert slot stands, and no entry comes to hold a forbidden pending part. -/
theorem RoutesHeld.of_entries (slot : ∀ d : DestId, t.router.routes[d].slot = s.router.routes[d].slot)
    (lawful : ∀ d : DestId, PendingLawful s.router.routes[d] → PendingLawful t.router.routes[d]) : RoutesHeld s t where
  slots unique i j hi hj ne k hk := by
    rw [slot] at hk ⊢
    exact unique i j hi hj ne k hk
  pendings all := (pendingsLawful_iff _).2 fun d => lawful d ((pendingsLawful_iff _).1 all d)

/-- R78, R79: the routes of either reset. -/
theorem RoutesHeld.of_reset (h : t.router.routes = Router.reset.routes) : RoutesHeld s t := by
  have entry : ∀ d : DestId, t.router.routes[d] = RouteEntry.reset := fun d => by
    rw [h]
    exact vof_get ..
  refine ⟨fun _ i j _ _ _ k hk => ?_, fun _ => (pendingsLawful_iff _).2 fun d => ?_⟩
  · rw [entry] at hk
    cases hk
  · rw [entry]
    trivial

end

/-! ### Insert slots (R62) -/

theorem slotTaken_eq_false {r : Router} {d : DestId} {k : SlotId} :
    slotTaken r d k = false ↔ ∀ j : DestId, 32 ≤ j.val → j ≠ d → r.routes[j].slot ≠ some k := by
  simp only [slotTaken, List.any_eq_false, List.mem_finRange, true_implies, Bool.and_eq_true, bne_iff_ne, decide_eq_true_eq,
    beq_iff_eq]
  exact forall_congr' fun j => ⟨fun h high other taken => h ⟨⟨other, high⟩, taken⟩,
    fun h ⟨⟨other, high⟩, taken⟩ => h high other taken⟩

/-! ### One entry changed (R65, R69, R70, R72 to R75) -/

section
variable {d : DestId} {f : RouteEntry → RouteEntry} {s : State}

theorem modRoute_entry (d : DestId) (f : RouteEntry → RouteEntry) (s : State) (i : DestId) :
    (modRoute d f s).router.routes[i] = if d = i then f s.router.routes[d] else s.router.routes[i] := vmod_get ..

theorem modRoute_routesHeld (slot : ∀ e, (f e).slot = e.slot)
    (lawful : PendingLawful s.router.routes[d] → PendingLawful (f s.router.routes[d])) : RoutesHeld s (modRoute d f s) := by
  refine .of_entries (fun i => ?_) fun i h => ?_
  · rw [modRoute_entry]
    split
    · next same => rw [slot, same]
    · rfl
  · rw [modRoute_entry]
    split
    · next same => exact lawful (same ▸ h)
    · exact h

/-- R65: a slot that no other insert entry names is stored. -/
theorem storeSlot_routesHeld {x : Option SlotId} (free : ∀ k, x = some k → slotTaken s.router d k = false) :
    RoutesHeld s (modRoute d (fun e => { e with slot := x }) s) := by
  have slot : ∀ i, (modRoute d (fun e => { e with slot := x }) s).router.routes[i].slot =
      if d = i then x else s.router.routes[i].slot := fun i => by
    rw [modRoute_entry]
    split <;> rfl
  refine ⟨fun unique i j hi hj ne k hk => ?_, fun lawful => (pendingsLawful_iff _).2 fun i => ?_⟩
  · rw [slot] at hk ⊢
    split at hk
    · next same =>
      have other : d ≠ j := fun h => ne (same.symm.trans h)
      rw [if_neg other]
      exact slotTaken_eq_false.1 (free k hk) j hj other.symm
    · next other =>
      split
      · exact fun taken => slotTaken_eq_false.1 (free k taken) i hi (Ne.symm other) hk
      · exact unique i j hi hj ne k hk
  · rw [modRoute_entry]
    split
    · exact lawful d
    · exact lawful i

theorem writeRoute_routesHeld (i : Nat) (e : List Byte) (s : State) : RoutesHeld s (writeRoute i e s).1 := by
  unfold writeRoute
  split
  · exact .refl s
  · split
    · split <;> exact .refl s
    · split
      · exact .refl s
      · exact storeSlot_routesHeld nofun
      · split
        · exact .refl s
        · next free =>
          refine storeSlot_routesHeld fun k hk => ?_
          cases hk
          simpa using free

theorem clearCollisions_routesHeld (s : State) : RoutesHeld s (clearCollisions s) := by
  have entry : ∀ i : DestId, (clearCollisions s).router.routes[i] = { s.router.routes[i] with collision := false } :=
    fun i => vmap_get ..
  exact .of_entries (fun i => by rw [entry]) fun i h => by rwa [entry]

theorem applyPending_slot (e : Epoch) (x : RouteEntry) : (applyPending e x).slot = x.slot := by
  unfold applyPending
  split
  · split <;> rfl
  · rfl

/-- R70: a pending part is applied or stands. -/
theorem applyPending_lawful (e : Epoch) {x : RouteEntry} (h : PendingLawful x) : PendingLawful (applyPending e x) := by
  unfold applyPending
  split
  · split
    · exact pendingLawful_none rfl
    · exact h
  · exact h

theorem routerSwitchPoint_routesHeld (e : Epoch) (s : State) : RoutesHeld s (routerSwitchPoint e s) := by
  have entry : ∀ i : DestId, (routerSwitchPoint e s).router.routes[i] = applyPending e s.router.routes[i] :=
    fun i => vmap_get ..
  exact .of_entries (fun i => by rw [entry, applyPending_slot]) fun i h => by
    rw [entry]
    exact applyPending_lawful e h

/-! ### Protection (R72 to R75) -/

theorem recordRefusal_routesHeld (d : DestId) (q : Byte) (s : State) : RoutesHeld s (recordRefusal d q s) := .of_routes rfl

/-- R73: PROTECTED keeps the owner's own pending part alone, LOCKED none. -/
theorem protectEntry_lawful (lock : Bool) (q : Byte) (e : RouteEntry) : PendingLawful (protectEntry lock q e) := by
  cases lock with
  | true => exact pendingLawful_none rfl
  | false =>
    show ∀ p, e.pending.filter (fun p => p.requester == q) = some p → p.requester = q
    intro p hp
    exact beq_iff_eq.1 (Option.filter_eq_some_iff.1 hp).2

theorem protectRequest_routesHeld (again : Bool) (q : Byte) (slot : ∀ e, (f e).slot = e.slot)
    (lawful : ∀ e, PendingLawful (f e)) : RoutesHeld s (protectRequest again q d f s).1 := by
  unfold protectRequest
  split
  · exact recordRefusal_routesHeld ..
  · exact modRoute_routesHeld slot fun _ => lawful _

theorem onDestination_routesHeld {act : DestId → State × ProtectAnswer} (dest : Byte) (h : ∀ d, RoutesHeld s (act d).1) :
    RoutesHeld s (onDestination dest act s).1 := by
  unfold onDestination
  split
  · exact .refl s
  · exact h _

theorem routerProtect_routesHeld (q dest mode : Byte) (s : State) : RoutesHeld s (routerProtect q dest mode s).1 := by
  refine onDestination_routesHeld _ fun d => ?_
  split
  · exact .refl s
  · exact protectRequest_routesHeld _ _ (fun _ => rfl) fun _ => protectEntry_lawful ..

theorem routerRelease_routesHeld (q dest : Byte) (s : State) : RoutesHeld s (routerRelease q dest s).1 :=
  onDestination_routesHeld _ fun _ => protectRequest_routesHeld _ _ (fun _ => rfl) fun _ => trivial

theorem routerAirlock_routesHeld (q dest : Byte) (s : State) : RoutesHeld s (routerAirlock q dest s).1 :=
  onDestination_routesHeld _ fun _ => protectRequest_routesHeld _ _ (fun _ => rfl) fun _ => pendingLawful_none rfl

end

/-! ### Takes (R68, R69) -/

section
variable (q : Byte) (t : Target)

theorem setPending_prot (y : DestId × Source) (s : State) (d : DestId) :
    (setPending q t y s).router.routes[d].prot = s.router.routes[d].prot := by
  rw [setPending, modRoute_entry]
  split
  · next same => rw [← same]
  · rfl

/-- R72: a take that the protection allows leaves a pending part that it allows. -/
theorem setPending_routesHeld {y : DestId × Source} {s : State} (h : takeRefusal s.router.routes[y.1].prot q = none) :
    RoutesHeld s (setPending q t y s) := by
  refine modRoute_routesHeld (fun _ => rfl) fun _ => ?_
  unfold PendingLawful
  rcases takeRefusal_none.1 h with free | own
  · simp only [free]
  · simp only [own, Option.some.injEq]
    rintro p rfl
    rfl

theorem setPendings_routesHeld {ys : List (DestId × Source)} {s : State}
    (h : ∀ y ∈ ys, takeRefusal s.router.routes[y.1].prot q = none) :
    RoutesHeld s (ys.foldl (fun acc y => setPending q t y acc) s) := by
  induction ys generalizing s with
  | nil => exact .refl s
  | cons y ys ih =>
    obtain ⟨first, later⟩ := List.forall_mem_cons.1 h
    exact (setPending_routesHeld q t first).trans (ih fun z hz => (setPending_prot q t y s z.1).symm ▸ later z hz)

theorem routerTake_routesHeld (ps : List (Byte × Half)) (s : State) : RoutesHeld s (routerTake q ps t s).1 := by
  unfold routerTake
  split
  · next ys judged =>
    have set := setPendings_routesHeld q (heldTarget s.sp.epoch t) (judgePairs_allowed (by simp) judged)
    exact .ite (fun _ => set.trans (report_only ..).routesHeld) fun _ => set
  · exact .refl s
  · exact recordRefusal_routesHeld ..

theorem takeRequest_routesHeld (m : TakeMsg) (s : State) : RoutesHeld s (takeRequest q m s).1 := by
  unfold takeRequest
  dsimp only
  split
  · exact .refl s
  · split
    · exact .refl s
    · exact routerTake_routesHeld ..

end

/-! ### Keys and panel lines (R122 to R143) -/

/-- R139: a ROUTE key takes on its own node by the rules of a take. -/
theorem startRoute_routesHeld (m : MapId) (k : KeyId) (n : Byte) (d : DestId) (x : Source) (s : State) :
    RoutesHeld s (startRoute m k n d x s) :=
  .ite (fun _ => (routerTake_routesHeld ..).trans (modKey_only ..).routesHeld)
    fun _ => (createCell_only ..).routesHeld.trans (modKey_only ..).routesHeld

theorem startTalk_routesHeld (m : MapId) (k : KeyId) (t : TalkTarget) (s : State) : RoutesHeld s (startTalk m k t s) :=
  .ite (fun _ => (createOrigin_only ..).routesHeld)
    fun _ => (createOrigin_only ..).routesHeld.trans (modKey_only ..).routesHeld

theorem startTallyTalk_routesHeld (m : MapId) (k : KeyId) (p : PointId) (s : State) : RoutesHeld s (startTallyTalk m k p s) := by
  unfold startTallyTalk
  dsimp only
  split
  · exact (modKey_only ..).routesHeld
  · exact .ite (fun _ => (createOrigin_only ..).routesHeld)
      fun _ => (createOrigin_only ..).routesHeld.trans (modKey_only ..).routesHeld

theorem endTallyTalk_routesHeld (m : MapId) (k : KeyId) (p : PointId) (s : State) : RoutesHeld s (endTallyTalk m k p s) := by
  unfold endTallyTalk
  dsimp only
  refine .trans ?_ (modKey_only ..).routesHeld
  split
  · exact .refl s
  · exact (endOrigin_only ..).routesHeld

theorem answerCall_routesHeld (m : MapId) (p : PointId) (s : State) : RoutesHeld s (answerCall m p s) := by
  unfold answerCall
  split
  · exact .refl s
  · exact .ite (fun _ => (sendCell_only ..).routesHeld.trans (cancelCall_only ..).routesHeld) fun _ => .refl s

theorem activateFn_routesHeld (m : MapId) (k : KeyId) (s : State) : RoutesHeld s (activateFn m k s) := by
  unfold activateFn
  split
  · exact .refl s
  · exact (answerCall_routesHeld ..).trans (startTalk_routesHeld ..)
  · exact startTalk_routesHeld ..
  · exact (modKey_only ..).routesHeld.trans (.foldl (fun _ _ => startTallyTalk_routesHeld ..) _ _)
  · have toggled : ∀ x c f, RoutesHeld s (modKey m k f (toggleSub x c s).1) := fun x c f =>
      (toggleSub_only ..).routesHeld.trans (modKey_only ..).routesHeld
    exact .ite (fun _ => (toggled ..).trans (modKey_only ..).routesHeld) fun _ => toggled ..
  · split
    · exact (modKey_only ..).routesHeld
    · exact (sendCell_only ..).routesHeld.trans (takeCallFor_only ..).routesHeld
  · exact startRoute_routesHeld ..

theorem setActive_routesHeld (m : MapId) (k : KeyId) (on : Bool) (s : State) : RoutesHeld s (setActive m k on s) := by
  cases on with
  | false => exact (setActive_off m k s).only.routesHeld
  | true => exact .ite (fun _ => .refl s) fun _ => (modKey_only ..).routesHeld.trans (activateFn_routesHeld ..)

theorem takeEdge_routesHeld (m : MapId) (k : KeyId) (press : Bool) (s : State) : RoutesHeld s (takeEdge m k press s) := by
  have moved : ∀ f on, RoutesHeld s (setActive m k on (modKey m k f s)) := fun f on =>
    (modKey_only ..).routesHeld.trans (setActive_routesHeld ..)
  unfold takeEdge
  split
  · exact setActive_routesHeld ..
  · exact .ite (fun _ => setActive_routesHeld ..) fun _ => .refl s
  · refine .ite (fun _ => ?_) fun _ => ?_
    · unfold autoPress
      split
      · exact moved ..
      · exact moved ..
      · exact .refl s
    · unfold autoRelease
      split
      · exact (modKey_only ..).routesHeld
      · exact moved ..
      · exact (modKey_only ..).routesHeld
      · exact .refl s

theorem scanKey_routesHeld (m : MapId) (p : Nat) (k : KeyId) (a : State × List (KeyId × Bool)) :
    RoutesHeld a.1 (scanKey m p k a).1 := by
  unfold scanKey
  dsimp only
  split
  · exact (modKey_only ..).routesHeld
  · split
    · exact (modKey_only ..).routesHeld
    · split
      · exact (modKey_only ..).routesHeld.trans (modKey_only ..).routesHeld
      · exact (modKey_only ..).routesHeld.trans (takeEdge_routesHeld ..)

theorem scanKeys_routesHeld (i : LineId) (m : MapId) (sc : Scan) (s : State) : RoutesHeld s (scanKeys i m sc s) := by
  have scanned : RoutesHeld s (forFin 32 (scanKey m sc.pressed) (s, [])).1 :=
    forFin_induct (α := State × List (KeyId × Bool)) (fun a => RoutesHeld s a.1) (scanKey m sc.pressed)
      (fun _ _ h => h.trans (scanKey_routesHeld ..)) (s, []) (.refl s)
  exact scanned.trans (.foldl (fun _ _ => (reportKey_only ..).routesHeld) _ _)

theorem loseLine_routesHeld (i : LineId) (id : Byte) (s : State) : RoutesHeld s (loseLine i id s) :=
  (loseLine_lost i id s).only.routesHeld

theorem enterLine_routesHeld (i : LineId) (sc : Scan) (s : State) : RoutesHeld s (enterLine i sc s) := by
  have entered : ∀ (f : PanelLine → PanelLine) (m : Option MapId), RoutesHeld s (match m with
      | some m => bindKeys m sc.pressed (modPanelLine i f s)
      | none => modPanelLine i f s) := fun f m => by
    cases m with
    | none => exact (modPanelLine_only ..).routesHeld
    | some m => exact (modPanelLine_only ..).routesHeld.trans (bindKeys_only ..).routesHeld
  exact .ite (fun _ => entered ..) fun _ => (entered ..).trans (report_only ..).routesHeld

theorem takeScan_routesHeld (i : LineId) (bs : List Byte) (s : State) : RoutesHeld s (takeScan i bs s) := by
  have answered : ∀ k s, RoutesHeld s (answerLamps i (handKnob i k s)) := fun k s =>
    (handKnob_only ..).routesHeld.trans (answerLamps_only ..).routesHeld
  unfold takeScan
  split
  · exact (modPanelLine_only ..).routesHeld
  · refine .ite (fun _ => (modPanelLine_only ..).routesHeld.trans (answered ..)) fun _ => .trans ?_ (answered ..)
    split
    · exact (modPanelLine_only ..).routesHeld.trans (scanKeys_routesHeld ..)
    · exact .ite (fun _ => (loseLine_routesHeld ..).trans (enterLine_routesHeld ..)) fun _ => enterLine_routesHeld ..

theorem announceBus_routesHeld (s : State) (b : BusId) : RoutesHeld s (announceBus s b) := by
  have resolved : ∀ m k cap s, RoutesHeld s (reresolveKey m k b cap s) := fun m k cap s =>
    ((RoutesHeld.foldl (fun _ _ => endTallyTalk_routesHeld ..) _ s).trans (modKey_only ..).routesHeld).trans
      (.foldl (fun _ _ => startTallyTalk_routesHeld ..) _ _)
  have told : ∀ m k s, RoutesHeld s (announceToKey b m k s) := fun m k s => by
    unfold announceToKey
    split
    · exact .ite (fun _ => resolved ..) fun _ => .refl s
    · exact .refl s
  exact .forFin (fun m s => .forFin (fun k s => told m k s) s) s

/-! ### Switch points (R31 to R36) -/

theorem deliver_routesHeld (e : Epoch) (s : State) : RoutesHeld s (deliver e s) := by
  have tally : ∀ s, RoutesHeld s (tallyDelivery e s) := fun s =>
    (tallySwitchPoint_only ..).routesHeld.trans (.foldl announceBus_routesHeld _ _)
  exact ((((((trunkSwitchPoint_only s).routesHeld.trans (routerSwitchPoint_routesHeld e _)).trans
    (talkSwitchPoint_only _).routesHeld).trans (keySwitchPoint_only _).routesHeld).trans (tally _)).trans
    (lampSwitchPoint_only ..).routesHeld).trans (mgmtSwitchPoint_only _).routesHeld

theorem makeHead_routesHeld (o : SpOrigin) (s : State) : RoutesHeld s (makeHead o s) :=
  (((modSp_only ..).routesHeld.trans (modSp_only ..).routesHeld).trans (modTrunk_only ..).routesHeld).trans
    (deliver_routesHeld ..)

theorem actOnMarker_routesHeld (e : Epoch) (s : State) : RoutesHeld s (actOnMarker e s) :=
  ((modSp_only ..).routesHeld.trans (modTrunk_only ..).routesHeld).trans (deliver_routesHeld ..)

theorem takeMarker_routesHeld (e : Epoch) (s : State) : RoutesHeld s (takeMarker e s) := by
  have restarted : RoutesHeld s (restartFreeRun s) := .ite (fun _ => (modSp_only ..).routesHeld) fun _ => .refl s
  exact .ite (fun _ => .ite (fun _ => actOnMarker_routesHeld ..) fun _ => .refl s) fun _ =>
    .ite (fun _ => restarted) fun _ => restarted.trans (actOnMarker_routesHeld ..)

theorem localPoint_routesHeld (s : State) : RoutesHeld s (localPoint s) := by
  refine .ite (fun _ => ?_) fun _ => .refl s
  split
  · exact .refl s
  · exact ((modSp_only ..).routesHeld.trans (modTrunk_only ..).routesHeld).trans (deliver_routesHeld ..)

theorem scheduledPoint_routesHeld (s : State) : RoutesHeld s (scheduledPoint s) := by
  refine .ite (fun _ => ?_) fun _ => .refl s
  split
  · exact .refl s
  · exact .ite (fun _ => (modSp_only ..).routesHeld.trans (makeHead_routesHeld ..)) fun _ => (modSp_only ..).routesHeld

theorem takePulse_routesHeld (s : State) : RoutesHeld s (takePulse s) := by
  have restored : ∀ s, RoutesHeld s (restoreReference s) := fun s =>
    .ite (fun _ => (modSp_only ..).routesHeld.trans (report_only ..).routesHeld) fun _ => .refl s
  exact .ite (fun _ => (modSp_only ..).routesHeld.trans (restored _)) fun _ => .refl s

theorem loseReference_routesHeld (s : State) : RoutesHeld s (loseReference s) :=
  .ite (fun _ => (modSp_only ..).routesHeld.trans (report_only ..).routesHeld) fun _ => .refl s

/-! ### Requests (R189 to R205) -/

theorem writeKeyMap_routesHeld (i : Nat) (e : List Byte) (s : State) : RoutesHeld s (writeKeyMap i e s).1 := by
  unfold writeKeyMap
  split
  · exact .refl s
  · split
    · exact .refl s
    · dsimp only
      rw [unbindForMap_eq]
      exact (unbindAll_unbound (takenMaps_nodup ..) s).only.routesHeld.trans (modPanel_only ..).routesHeld

theorem writeKey_routesHeld (i : Nat) (e : List Byte) (s : State) : RoutesHeld s (writeKey i e s).1 := by
  unfold writeKey
  split
  · exact .refl s
  · split
    · exact .refl s
    · dsimp only
      refine .trans (.ite (fun _ => ?_) fun _ => .refl s) (modPanel_only ..).routesHeld
      exact (setActive_routesHeld ..).trans (modKey_only ..).routesHeld

theorem writeEntry_routesHeld (t : Table) (i : Nat) (e : List Byte) (s : State) : RoutesHeld s (writeEntry t i e s).1 := by
  unfold writeEntry
  split
  · exact .refl s
  · cases t with
    | route => exact writeRoute_routesHeld ..
    | mix => exact (writeMix_only ..).routesHeld
    | conf => exact (writeConf_only ..).routesHeld
    | keymap => exact writeKeyMap_routesHeld ..
    | key => exact writeKey_routesHeld ..
    | camera => exact (writeCamera_only ..).routesHeld
    | tallymap => exact (writeTallymap_only ..).routesHeld
    | line => exact (writeLine_only ..).routesHeld
    | subst => exact (writeSubst_only ..).routesHeld
    | gpi => exact (writeGpi_only ..).routesHeld
    | sched => exact (writeSched_only ..).routesHeld
    | node => exact (writeNode_only ..).routesHeld

theorem serveSet_routesHeld (src t : Byte) (i : Half) (e : List Byte) (s : State) : RoutesHeld s (serveSet src t i e s).1 := by
  unfold serveSet
  split
  · exact .refl s
  · split
    · exact .refl s
    · split
      · exact .refl s
      · exact writeEntry_routesHeld ..

theorem feedLoad_routesHeld (full : Bool) (fuel : Nat) (bs : List Byte) (r : LoadRec) (s : State) :
    RoutesHeld s (feedLoad full fuel bs r s).1 := by
  induction fuel generalizing bs r s with
  | zero => exact .refl s
  | succ fuel ih =>
    unfold feedLoad
    dsimp only
    split
    · split <;> exact .refl s
    · split
      · exact .refl s
      · split
        · exact writeEntry_routesHeld ..
        · exact (writeEntry_routesHeld ..).trans (ih ..)

theorem setLoad_routesHeld (l : Load) (s : State) : RoutesHeld s (setLoad l s) := (modMgmt_only ..).routesHeld

theorem serveLoadData_routesHeld (src seg : Byte) (d : List Byte) (s : State) : RoutesHeld s (serveLoadData src seg d s).1 := by
  unfold serveLoadData
  split
  · exact .refl s
  · split
    · exact .refl s
    · split
      · exact .refl s
      · split
        · exact (feedLoad_routesHeld ..).trans (setLoad_routesHeld ..)
        · split
          · exact setLoad_routesHeld ..
          · exact .refl s

/-- R64, R202: of a CLEAR, the collision flags alone are the router's. -/
theorem clearItems_routesHeld (items : Nat) (s : State) : RoutesHeld s (clearItems items s) := by
  have routes : (clearItems items s).router.routes =
      (if items.testBit 20 then clearCollisions s else s).router.routes := by
    rw [clearItems_eq, apply_ite State.router]
  have cleared : RoutesHeld s (if items.testBit 20 then clearCollisions s else s) :=
    .ite (fun _ => clearCollisions_routesHeld s) fun _ => .refl s
  exact cleared.trans (.of_routes routes)

theorem serve_routesHeld (src : Byte) (r : Request) (s : State) : RoutesHeld s (serve src r s).1 := by
  cases r with
  | set t i e => exact serveSet_routesHeld ..
  | loadOpen t i n => exact (serveLoadOpen_only ..).routesHeld
  | loadData seg d => exact serveLoadData_routesHeld ..
  | take m => exact takeRequest_routesHeld ..
  | protect d m => exact routerProtect_routesHeld ..
  | release d => exact routerRelease_routesHeld ..
  | airlock d => exact routerAirlock_routesHeld ..
  | showLock => exact (modMgmt_only s fun m => { m with showLock := true }).routesHeld
  | clear items =>
    show RoutesHeld s (serveClear items s).1
    unfold serveClear
    split
    · exact .refl s
    · exact clearItems_routesHeld ..
  | resetExecute =>
    show RoutesHeld s (serveExecute src s).1
    unfold serveExecute
    split
    · exact .of_reset rfl
    · exact .refl s
  | query | status | identify | resetPrepare | unknown | short => exact .refl s

theorem takeRequestCell_routesHeld (src tag : Byte) (r : Request) (s : State) : RoutesHeld s (takeRequestCell src tag r s) := by
  have served : RoutesHeld s (serveNew src tag r s) := by
    have answered := (serve_routesHeld src r s).trans (answer_only src tag (requestCode r)
      (codeByte (serve src r s).2.code :: (serve src r s).2.fields) _).routesHeld
    exact .ite (fun _ => answered.trans (modTrunk_only ..).routesHeld) fun _ => answered
  unfold takeRequestCell
  split
  · exact .ite (fun _ => (sendCell_only ..).routesHeld) fun _ => served
  · exact served

theorem receiveCell_routesHeld (c : Cell) (s : State) : RoutesHeld s (receiveCell c s) := by
  unfold receiveCell
  split
  · next k _ =>
    cases k with
    | talkOn => exact (takeTalkOn_only ..).routesHeld
    | talkOff => exact (takeTalkOff_only ..).routesHeld
    | talkReply => exact (takeTalkReply_only ..).routesHeld
    | confOn => exact (takeConfOn_only ..).routesHeld
    | confOff => exact (takeConfOff_only ..).routesHeld
    | call => exact (takeCall_only ..).routesHeld
    | callCancel => exact (takeCancel_only ..).routesHeld
    | tallySet => exact (takeTallySet_only ..).routesHeld
    | request => exact takeRequestCell_routesHeld ..
    | reply => exact (takeReply_only ..).routesHeld
    | event => exact .refl s
  all_goals exact (modCells_only ..).routesHeld

/-! ### Frames (R3 to R19, R62, R63) -/

theorem judgeConflict_routesHeld (f : WireFrame) (s : State) : RoutesHeld s (judgeConflict f s) := by
  have yielded : RoutesHeld s (yieldHead s) :=
    ((modTrunk_only ..).routesHeld.trans (modSp_only ..).routesHeld).trans (rolesChanged_only ..).routesHeld
  refine .ite (fun _ => .ite (fun _ => ?_) fun _ => .ite (fun _ => .refl s) fun _ => ?_) fun _ => .refl s
  · exact yielded.trans (report_only ..).routesHeld
  · exact (modTrunk_only ..).routesHeld.trans (report_only ..).routesHeld

theorem judgeMode_routesHeld (f : WireFrame) (s : State) : RoutesHeld s (judgeMode f s) :=
  .ite (fun _ => ((modTrunk_only ..).routesHeld.trans (rolesChanged_only ..).routesHeld).trans
    (reportLinkChange_only ..).routesHeld) fun _ => .refl s

theorem enterBuffer_routesHeld (p : Port) (f : WireFrame) (s : State) : RoutesHeld s (enterBuffer p f s) :=
  .ite (fun _ => (modTrunk_only ..).routesHeld) fun _ => .refl s

theorem actOnFrame_routesHeld (marker : Option Epoch) (cell : Option Cell) (s : State) :
    RoutesHeld s (actOnFrame marker cell s) := by
  have counted : RoutesHeld s s.countChoice := (countChoice_only s).routesHeld
  unfold actOnFrame
  split
  · exact .refl s
  · exact takeMarker_routesHeld ..
  · exact receiveCell_routesHeld ..
  · exact .ite (fun _ => (counted.trans (takeMarker_routesHeld ..)).trans (receiveCell_routesHeld ..))
      fun _ => (counted.trans (receiveCell_routesHeld ..)).trans (takeMarker_routesHeld ..)

theorem readFrame_routesHeld (p : Port) (f : WireFrame) (s : State) : RoutesHeld s (readFrame p f s) := by
  have counted : ∀ fate s, RoutesHeld s (countBadCell p fate s) := fun fate s => by
    unfold countBadCell
    split
    · exact .ite (fun _ => (modTrunk_only ..).routesHeld) fun _ => .refl s
    · exact .refl s
  have copied : ∀ b s, RoutesHeld s (copySlots p b s) := fun b s => (modTrunk_only ..).routesHeld
  exact (((((judgeConflict_routesHeld f s).trans (judgeMode_routesHeld ..)).trans (counted _ _)).trans (copied _ _)).trans
    (enterBuffer_routesHeld ..)).trans (actOnFrame_routesHeld ..)

theorem lockMoved_routesHeld (old : Trunk) (p : Port) (f : PortState → PortState) (s : State) :
    RoutesHeld s (lockMoved old p (s.modTrunk (modPort p f))) :=
  (modTrunk_only ..).routesHeld.trans (lockMoved_only ..).routesHeld

theorem arrive_routesHeld (p : Port) (f : WireFrame) (s : State) : RoutesHeld s (arrive p f s) := by
  have counted := lockMoved_routesHeld s.trunk p (countFrame (headerGood f)) s
  refine .ite (fun _ => .ite (fun _ => ?_) fun _ => ?_) fun _ => ?_
  · exact (counted.trans (judgeConflict_routesHeld ..)).trans (enterBuffer_routesHeld ..)
  · exact counted.trans (readFrame_routesHeld ..)
  · exact counted.trans (enterBuffer_routesHeld ..)

/-- R63: a collision flag is no part of the slots or of the pending parts. -/
theorem CollisionsOnly.routesHeld {s t : State} (h : CollisionsOnly s.router t.router) : RoutesHeld s t :=
  .of_entries (fun d => by rw [h.routes d]) fun d lawful => by
    rw [h.routes d]
    exact lawful

theorem sendFrame_routesHeld (p : Port) (s : State) : RoutesHeld s (sendFrame p s) := by
  have built : RoutesHeld s (buildFrame p s).1 := by
    unfold buildFrame
    dsimp only
    split
    · exact .refl s
    · exact .refl s
    · exact (fillFrame_collisions ..).routesHeld
    · exact (fillFrame_collisions ..).routesHeld
  exact .ite (fun _ => .refl s) fun _ => built.trans (modTrunk_only ..).routesHeld

/-! ### The sample period (R61, R62) -/

theorem runPeriod_routesHeld (tdm : Vector Sample 32) (s : State) : RoutesHeld s (runPeriod tdm s) := by
  have delivered : RoutesHeld s
      { s with mix := mixAfter (mixPeriods tdm s) s.mix, router := routerAfter tdm (mixPeriods tdm s) s } := .of_routes rfl
  have ticked : ∀ s, RoutesHeld s (tick s) := fun s => .of_routes (t := tick s) rfl
  exact ((delivered.trans (reportAllClipped_only ..).routesHeld).trans (lampFrame_only _).routesHeld).trans (ticked _)

/-! ### Every command -/

theorem act_routesHeld {f : State → State} {s t : State} (h : act f s = .next t) (hf : RoutesHeld s (f s)) :
    RoutesHeld s t := by
  cases h
  exact .ite (fun _ => hf) fun _ => .refl s

theorem fromCell_routesHeld {src : Byte} {f : State → State} {s t : State} (h : act (fromCell src f) s = .next t)
    (hf : RoutesHeld s (f s)) : RoutesHeld s t :=
  act_routesHeld h (.ite (fun _ => .refl s) fun _ => .ite (fun _ => hf) fun _ => (modCells_only ..).routesHeld)

theorem exec_routesHeld (c : Instr) (s t : State) (h : exec c s = .next t) : RoutesHeld s t := by
  cases c with
  | pinReset a hd =>
    cases h
    exact .of_reset rfl
  | frameArrival p f =>
    cases h
    exact .ite (fun _ => arrive_routesHeld ..) fun _ => (modTrunk_only ..).routesHeld
  | missingFrame p => exact act_routesHeld h (.ite (fun _ => lockMoved_routesHeld ..) fun _ => .refl s)
  | outputFrameSend p => exact act_routesHeld h (sendFrame_routesHeld ..)
  | samplePeriod tdm =>
    cases h
    exact .ite (fun _ => runPeriod_routesHeld ..) fun _ => .of_routes (t := repeaterPeriod s) rfl
  | referencePulse => exact act_routesHeld h (takePulse_routesHeld s)
  | referenceLost => exact act_routesHeld h (loseReference_routesHeld s)
  | scheduledSwitchPoint => exact act_routesHeld h (scheduledPoint_routesHeld s)
  | headFreeRun => exact act_routesHeld h (.ite (fun _ => makeHead_routesHeld ..) fun _ => .refl s)
  | epochHoldOffEnd => exact act_routesHeld h (.ite (fun _ => (modSp_only ..).routesHeld) fun _ => .refl s)
  | localSwitchPoint => exact act_routesHeld h (localPoint_routesHeld s)
  | originResend i => exact act_routesHeld h (.ite (fun _ => (resendOrigin_only ..).routesHeld) fun _ => .refl s)
  | leaseExpiry l n i => exact act_routesHeld h (.ite (fun _ => (expireTalker_only ..).routesHeld) fun _ => .refl s)
  | callExpiry t c =>
    exact act_routesHeld h (.ite (fun _ => ((modCalls_only ..).trans (resolveFor_only ..)).routesHeld) fun _ => .refl s)
  | keyWindowEnd m k => exact act_routesHeld h (modKey_only ..).routesHeld
  | routeCountdownEnd m k => exact act_routesHeld h (modKey_only ..).routesHeld
  | loadAbandoned => exact act_routesHeld h (abandonIfDue_only s).routesHeld
  | lampPeriodStart => exact act_routesHeld h (lampPeriodStart_only s).routesHeld
  | faultSense reads => exact act_routesHeld h (takeFaultReads_only ..).routesHeld
  | gpiSample closed => exact act_routesHeld h (takeGpiSample_only ..).routesHeld
  | scan i bytes => exact act_routesHeld h (takeScan_routesHeld ..)
  | autoHoldReached m k => exact act_routesHeld h (modKey_only ..).routesHeld
  | panelTimeout i => exact act_routesHeld h (.ite (fun _ => loseLine_routesHeld ..) fun _ => .refl s)
  | talkOn src tag m => exact fromCell_routesHeld h (takeTalkOn_only ..).routesHeld
  | talkOff src tag m => exact fromCell_routesHeld h (takeTalkOff_only ..).routesHeld
  | talkReply src tag m => exact fromCell_routesHeld h (takeTalkReply_only ..).routesHeld
  | confOn src tag m => exact fromCell_routesHeld h (takeConfOn_only ..).routesHeld
  | confOff src tag m => exact fromCell_routesHeld h (takeConfOff_only ..).routesHeld
  | call src tag m => exact fromCell_routesHeld h (takeCall_only ..).routesHeld
  | callCancel src tag m => exact fromCell_routesHeld h (takeCancel_only ..).routesHeld
  | tallySet src tag m => exact fromCell_routesHeld h (takeTallySet_only ..).routesHeld
  | reply src tag m => exact fromCell_routesHeld h (takeReply_only ..).routesHeld
  | _ => exact fromCell_routesHeld h (takeRequestCell_routesHeld ..)

/-- A step runs a command on the node with the rest of its queue, or idles. -/
theorem step_routesHeld {s t : State} (h : step s = .next t) : RoutesHeld s t := by
  unfold step at h
  split at h
  · cases h
    exact .refl s
  · next rest _ =>
    have taken : RoutesHeld s { s with pending := rest } := .of_routes rfl
    exact taken.trans (exec_routesHeld _ _ _ h)

/-- Settles O9: no command brings two insert entries to one slot, or a pending part to a destination whose protection
forbids it (`step_routesHeld`). -/
theorem routesKept : Obligations.RoutesKept :=
  fun _ _ slots pendings h => ⟨(step_routesHeld h).slots slots, (step_routesHeld h).pendings pendings⟩

end Sys2Proof.Machine
end

section
/-! SUPPORT. The insertions into one frame, slot by slot and flag by flag (O26). -/

namespace Sys2Proof.Machine

open Sys2Proof

-- One theorem after another: all files together, as one text, elaborate on more threads than the memory limit lets run.
set_option Elab.async false

/-! ### One insert entry (R62, R63) -/

/-- The destination that is insert entry `n`. -/
def insertDest (n : Fin 32) : DestId := ⟨n.val + 32, by omega⟩

theorem insertDest_inj {n m : Fin 32} (h : insertDest n = insertDest m) : n = m := by
  have := congrArg Fin.val h
  simp only [insertDest] at this
  omega

section
variable (b : FrameBody) (d : Dir) (orig : Byte) (ins : Vector (Option (SlotId × Sample)) 32) (n : Fin 32)

/-- R62: what insert entry `n` makes of the frame, whose slots arrived as in `b`. -/
def slotPlaced (c : FrameBody) : FrameBody :=
  match ins[n] with
  | none => c
  | some (t, x) => if slotValid b.slots[t] then c else { c with slots := c.slots.set t { mark := 1, sample := x } }

/-- R63: what insert entry `n` makes of the node. -/
def slotRefused (s : State) : State :=
  match ins[n] with
  | none => s
  | some (t, _) => if slotValid b.slots[t] then collide n t d orig s else s

/-- R63: insert entry `n` meets a slot that arrived valid. -/
def Meets : Prop := ∃ t x, ins[n] = some (t, x) ∧ slotValid b.slots[t] = true

theorem insertOne_eq (a : State × FrameBody) : insertOne b d orig n a =
    (slotRefused b d orig a.1.router.insertions n a.1, slotPlaced b a.1.router.insertions n a.2) := by
  unfold insertOne slotRefused slotPlaced
  cases a.1.router.insertions[n] with
  | none => rfl
  | some y =>
    dsimp only
    split <;> rfl

/-! ### The slots of the frame -/

variable {b ins n} {t : SlotId} {x : Sample} (c : FrameBody)

theorem slotPlaced_own (h : ins[n] = some (t, x)) (free : slotValid b.slots[t] = false) :
    (slotPlaced b ins n c).slots[t] = { mark := 1, sample := x } := by
  rw [slotPlaced, h]
  dsimp only
  rw [if_neg (Bool.eq_false_iff.1 free)]
  exact (vset_get ..).trans (if_pos rfl)

/-- R62: a slot that the entry does not name, or that arrived valid, is left alone. -/
theorem slotPlaced_other (h : ∀ x, ins[n] = some (t, x) → slotValid b.slots[t] = true) :
    (slotPlaced b ins n c).slots[t] = c.slots[t] := by
  unfold slotPlaced
  split
  · rfl
  · next k y entry =>
    split
    · rfl
    · next free =>
      have other : k ≠ t := fun same => free (same ▸ h y (same ▸ entry))
      exact (vset_get ..).trans (if_neg other)

end

/-! ### The collision flags -/

section
variable (b : FrameBody) (d : Dir) (orig : Byte) (ins : Vector (Option (SlotId × Sample)) 32) (n : Fin 32) (s : State)

theorem collide_flagged {n : Fin 32} {s : State} (t : SlotId) (h : s.router.routes[insertDest n].collision = true) :
    collide n t d orig s = s := if_pos h

/-- R63: a collision of an entry whose flag is clear sets it and is reported. -/
theorem collide_clear {n : Fin 32} {s : State} (t : SlotId) (h : s.router.routes[insertDest n].collision = false) :
    collide n t d orig s = report .slotCollision
      ([b8 (insertDest n).val, b8 t.val, dirCode d, orig] ++ epochBytes s.sp.epoch)
      (modRoute (insertDest n) (fun e => { e with collision := true }) s) := if_neg (Bool.eq_false_iff.1 h)

theorem collide_insertions (t : SlotId) : (collide n t d orig s).router.insertions = s.router.insertions :=
  (congrArg Router.insertions (collide_collisions n t d orig s).rest).trans rfl

/-- R63: after a collision the flag of its entry is set, and the other entries stand. -/
theorem collide_routes (t : SlotId) (i : DestId) : (collide n t d orig s).router.routes[i] =
    if insertDest n = i then { s.router.routes[i] with collision := true } else s.router.routes[i] := by
  cases flag : s.router.routes[insertDest n].collision with
  | true =>
    rw [collide_flagged d orig t flag]
    split
    · next own =>
      subst own
      exact congrArg (fun c => { s.router.routes[insertDest n] with collision := c }) flag
    · rfl
  | false =>
    have router := (report_only .slotCollision
      ([b8 (insertDest n).val, b8 t.val, dirCode d, orig] ++ epochBytes s.sp.epoch)
      (modRoute (insertDest n) (fun e => { e with collision := true }) s)).keep .router (by decide)
    rw [collide_clear d orig t flag, router, modRoute_entry]
    split
    · next own => rw [own]
    · rfl

/-- R63, R203: a collision that sets a flag sets the event flag too. -/
theorem collide_told (t : SlotId) : collide n t d orig s = s ∨ (collide n t d orig s).mgmt.sticky.getLsbD 4 = true := by
  cases flag : s.router.routes[insertDest n].collision with
  | true => exact .inl (collide_flagged d orig t flag)
  | false =>
    rw [collide_clear d orig t flag]
    exact .inr (report_flags .slotCollision _ _).2

/-- R63: an insert entry meets no collision, or one. -/
theorem slotRefused_cases : (¬Meets b ins n ∧ slotRefused b d orig ins n s = s) ∨
    (Meets b ins n ∧ ∃ t, slotRefused b d orig ins n s = collide n t d orig s) := by
  unfold slotRefused Meets
  split
  · next absent => exact .inl ⟨fun ⟨_, _, entry, _⟩ => (nomatch absent.symm.trans entry), rfl⟩
  · next t x entry =>
    split
    · next valid => exact .inr ⟨⟨t, x, entry, valid⟩, t, rfl⟩
    · next free =>
      refine .inl ⟨fun ⟨t', x', entry', valid⟩ => free ?_, rfl⟩
      rw [entry] at entry'
      cases entry'
      exact valid

theorem slotRefused_insertions : (slotRefused b d orig ins n s).router.insertions = s.router.insertions := by
  rcases slotRefused_cases b d orig ins n s with ⟨-, h⟩ | ⟨-, t, h⟩
  · rw [h]
  · rw [h, collide_insertions]

theorem slotRefused_routes {i : DestId} (other : insertDest n ≠ i) :
    (slotRefused b d orig ins n s).router.routes[i] = s.router.routes[i] := by
  rcases slotRefused_cases b d orig ins n s with ⟨-, h⟩ | ⟨-, t, h⟩
  · rw [h]
  · rw [h, collide_routes, if_neg other]

theorem slotRefused_collision (i : DestId) : (slotRefused b d orig ins n s).router.routes[i].collision = true ↔
    s.router.routes[i].collision = true ∨ (insertDest n = i ∧ Meets b ins n) := by
  rcases slotRefused_cases b d orig ins n s with ⟨free, h⟩ | ⟨meets, t, h⟩
  · rw [h]
    exact ⟨.inl, fun g => g.elim id fun g => absurd g.2 free⟩
  · rw [h, collide_routes]
    split
    · next own => exact ⟨fun _ => .inr ⟨own, meets⟩, fun _ => rfl⟩
    · next other => exact ⟨.inl, fun g => g.elim id fun g => absurd g.1 other⟩

/-- R63, R203: a flag newly set is told. -/
theorem slotRefused_told {i : DestId} (h : s.router.routes[i].collision = true → s.mgmt.sticky.getLsbD 4 = true) :
    (slotRefused b d orig ins n s).router.routes[i].collision = true →
      (slotRefused b d orig ins n s).mgmt.sticky.getLsbD 4 = true := by
  rcases slotRefused_cases b d orig ins n s with ⟨-, same⟩ | ⟨-, t, collided⟩
  · rwa [same]
  · rw [collided]
    rcases collide_told d orig n s t with same | told
    · rwa [same]
    · exact fun _ => told

end

/-! ### Every insert entry (R62) -/

section
variable (b : FrameBody) (d : Dir) (orig : Byte)

/-- R62: the frame and the node are changed side by side, by the insertions of the period. -/
theorem insertAll_eq (s : State) : insertAll b d orig s =
    (forFin 32 (slotRefused b d orig s.router.insertions) s, forFin 32 (slotPlaced b s.router.insertions) b) := by
  have entries : ∀ (ins : Vector (Option (SlotId × Sample)) 32) (l : List (Fin 32)) (a : State × FrameBody),
      a.1.router.insertions = ins → l.foldl (fun acc n => insertOne b d orig n acc) a =
        (l.foldl (fun u n => slotRefused b d orig ins n u) a.1, l.foldl (fun c n => slotPlaced b ins n c) a.2) := by
    intro ins l
    induction l with
    | nil => exact fun _ _ => rfl
    | cons n l ih =>
      rintro a rfl
      rw [List.foldl_cons, insertOne_eq]
      exact ih _ (slotRefused_insertions ..)
  exact entries s.router.insertions (List.finRange 32) (s, b) rfl

variable (ins : Vector (Option (SlotId × Sample)) 32) (s : State)

theorem collisions_iff (i : DestId) : (forFin 32 (slotRefused b d orig ins) s).router.routes[i].collision = true ↔
    s.router.routes[i].collision = true ∨ ∃ n, insertDest n = i ∧ Meets b ins n := by
  have entries : ∀ (l : List (Fin 32)) (u : State),
      (l.foldl (fun u n => slotRefused b d orig ins n u) u).router.routes[i].collision = true ↔
        u.router.routes[i].collision = true ∨ ∃ n ∈ l, insertDest n = i ∧ Meets b ins n := by
    intro l
    induction l with
    | nil => simp
    | cons n l ih =>
      intro u
      rw [List.foldl_cons, ih, slotRefused_collision, or_assoc, List.exists_mem_cons_iff]
  refine (entries (List.finRange 32) s).trans (or_congr_right (exists_congr fun n => ?_))
  exact and_iff_right (List.mem_finRange n)

/-- R63: the report of a collision of entry `n`, as it stands in `s` before the frame; `u` is the node so far. -/
def collisionReported (u : State) (n : Fin 32) : State :=
  match s.router.insertions[n] with
  | none => u
  | some (t, _) =>
    if slotValid b.slots[t] = true ∧ s.router.routes[insertDest n].collision = false then
      report .slotCollision ([b8 (insertDest n).val, b8 t.val, dirCode d, orig] ++ epochBytes s.sp.epoch)
        { u with router := { u.router with
          routes := u.router.routes.set (insertDest n) { s.router.routes[insertDest n] with collision := true } } }
    else u

theorem slotRefused_eq_reported {u : State} {n : Fin 32}
    (entry : u.router.routes[insertDest n] = s.router.routes[insertDest n]) (sp : u.sp = s.sp) :
    slotRefused b d orig s.router.insertions n u = collisionReported b d orig s u n := by
  unfold slotRefused collisionReported
  split
  · rfl
  · next t x _ =>
    cases flag : s.router.routes[insertDest n].collision with
    | true =>
      rw [collide_flagged d orig t (by rw [entry, flag]), ite_self, if_neg (fun h => nomatch h.2)]
    | false =>
      rw [collide_clear d orig t (by rw [entry, flag]), ← entry, ← sp]
      exact if_congr (by simp) rfl rfl

/-- R63: the collisions of a frame are reported in ascending entry (log 7). -/
theorem collisions_reported :
    forFin 32 (slotRefused b d orig s.router.insertions) s = (List.finRange 32).foldl (collisionReported b d orig s) s := by
  have entries : ∀ (l : List (Fin 32)) (u : State), l.Nodup → u.sp = s.sp →
      (∀ n ∈ l, u.router.routes[insertDest n] = s.router.routes[insertDest n]) →
      l.foldl (fun u n => slotRefused b d orig s.router.insertions n u) u = l.foldl (collisionReported b d orig s) u := by
    intro l
    induction l with
    | nil => exact fun _ _ _ _ => rfl
    | cons n l ih =>
      intro u distinct sp ahead
      obtain ⟨hn, distinct⟩ := List.nodup_cons.1 distinct
      obtain ⟨own, ahead⟩ := List.forall_mem_cons.1 ahead
      rw [List.foldl_cons, List.foldl_cons, ← slotRefused_eq_reported b d orig s own sp]
      refine ih _ distinct ?_ fun m hm => ?_
      · rcases slotRefused_cases b d orig s.router.insertions n u with ⟨-, h⟩ | ⟨-, t, h⟩
        · rw [h, sp]
        · rw [h, (collide_only ..).keep .sp (by decide), sp]
      · have other : insertDest n ≠ insertDest m := fun same => hn (insertDest_inj same ▸ hm)
        rw [slotRefused_routes _ _ _ _ _ _ other, ahead m hm]
  exact entries _ s (List.nodup_finRange 32) rfl fun _ _ => rfl

end

/-- Settles O26: the slots entry by entry (`slotPlaced_own`, `slotPlaced_other`), the flags by `collisions_iff`, the reports
by `collisions_reported`. -/
theorem slotsInserted : Obligations.SlotsInserted := by
  intro b d orig s
  have only := insertAll_only b d orig s
  have router := insertAll_collisions b d orig s
  have slot := insertAll_slot b d orig s
  have whole := insertAll_eq b d orig s
  generalize insertAll b d orig s = r at only router slot whole ⊢
  have node : r.1 = forFin 32 (slotRefused b d orig s.router.insertions) s := congrArg Prod.fst whole
  have frame : r.2 = forFin 32 (slotPlaced b s.router.insertions) b := congrArg Prod.snd whole
  have stands : ∀ t : SlotId, (∀ (n : Fin 32) x, s.router.insertions[n] = some (t, x) → slotValid b.slots[t] = true) →
      r.2.slots[t] = b.slots[t] := fun t h => by
    rw [frame]
    exact forFin_induct (fun c : FrameBody => c.slots[t] = b.slots[t]) _
      (fun n c hc => (slotPlaced_other c (h n)).trans hc) b rfl
  have flags : ∀ i : DestId, r.1.router.routes[i].collision = true ↔ s.router.routes[i].collision = true ∨
      ∃ n, insertDest n = i ∧ Meets b s.router.insertions n := fun i => by
    rw [node]
    exact collisions_iff ..
  refine ⟨only, slot.1, slot.2, fun t unnamed => stands t fun n x h => absurd h (unnamed n x),
    fun n t x entry alone => ⟨fun free => ?_, fun valid => ⟨stands t fun _ _ _ => valid, fun clear => ?_⟩⟩, router.rest,
    fun i => ⟨router.routes i, (flags i).trans (or_congr_right ⟨?_, ?_⟩)⟩, ?_⟩
  · rw [frame]
    refine forFin_reaches (P := fun _ => True) (Q := fun c : FrameBody => c.slots[t] = { mark := 1, sample := x }) n
      (fun _ _ _ => trivial) (fun c _ => slotPlaced_own c entry free) (fun m c _ hc => ?_) trivial
    by_cases same : m = n
    · rw [same]
      exact slotPlaced_own c entry free
    · exact (slotPlaced_other c fun y h => absurd h (alone m y same)).trans hc
  · have told := forFin_induct
      (fun u : State => u.router.routes[insertDest n].collision = true → u.mgmt.sticky.getLsbD 4 = true) _
      (fun m u h => slotRefused_told b d orig s.router.insertions m u h) s fun set => nomatch set.symm.trans clear
    rw [← node] at told
    exact told ((flags _).2 (.inr ⟨n, rfl, t, x, entry, valid⟩))
  · rintro ⟨n, rfl, t, x, entry, valid⟩
    exact ⟨n, t, x, rfl, entry, valid⟩
  · rintro ⟨n, t, x, own, entry, valid⟩
    exact ⟨n, Fin.ext own.symm, t, x, entry, valid⟩
  · rw [node, collisions_reported]
    rfl

end Sys2Proof.Machine
end

section
/-! SUPPORT. The entries that a SET stores as they stand, and those it refuses: routes, conferences, cameras, lamp lines,
substitution links and GPIs (O52). -/

namespace Sys2Proof.Machine

open Sys2Proof

-- One theorem after another: all files together, as one text, elaborate on more threads than the memory limit lets run.
set_option Elab.async false

/-! ### Routes (R65) -/

section
variable {i : Nat} {d : DestId} {slot : Option SlotId} {e : List Byte} {s : State}

theorem writeRoute_local (hi : i = d.val) (low : d.val < 32) (he : byteAt e 0 = 0xFF) : writeRoute i e s = (s, .ok) := by
  subst hi
  simp only [writeRoute, asFin_val, if_pos low, if_pos he]

theorem writeRoute_refused (hi : i = d.val) (present : byteAt e 0 ≠ 0xFF) (h : d.val < 32 ∨ 128 ≤ (byteAt e 0).toNat) :
    writeRoute i e s = (s, .invalid) := by
  subst hi
  by_cases low : d.val < 32
  · simp only [writeRoute, asFin_val, if_pos low, if_neg present]
  · simp only [writeRoute, asFin_val, if_neg low, readSlotOpt_none ⟨h.resolve_left low, present⟩]

theorem writeRoute_stored (hi : i = d.val) (high : 32 ≤ d.val) (he : byteAt e 0 = optByte slot)
    (free : ∀ t, slot = some t → slotTaken s.router d t = false) :
    writeRoute i e s = (modRoute d (fun x => { x with slot := slot }) s, .ok) := by
  subst hi
  simp only [writeRoute, asFin_val, if_neg (Nat.not_lt.2 high), he, readSlotOpt_optByte]
  cases slot with
  | none => rfl
  | some t => exact if_neg (Bool.eq_false_iff.1 (free t rfl))

theorem writeRoute_duplicate {t : SlotId} (hi : i = d.val) (high : 32 ≤ d.val) (he : byteAt e 0 = optByte (some t))
    (taken : slotTaken s.router d t = true) : writeRoute i e s = (s, .duplicateSlot) := by
  subst hi
  simp only [writeRoute, asFin_val, if_neg (Nat.not_lt.2 high), he, readSlotOpt_optByte, if_pos taken]

theorem slotTaken_of_named {r : Router} {t : SlotId} (h : ∃ j : DestId, 32 ≤ j.val ∧ j ≠ d ∧ r.routes[j].slot = some t) :
    slotTaken r d t = true := by
  obtain ⟨j, high, other, named⟩ := h
  exact Bool.of_not_eq_false fun free => slotTaken_eq_false.1 free j high other named

end

/-! ### Conferences and cameras (R81, R155) -/

section
variable {i : Nat} {e : List Byte} {s : State}

theorem writeConf_stored {c : ConfId} {home : Bool} (hi : i = c.val) (he : readFlag (byteAt e 0) = some home) :
    writeConf i e s =
      (s.modTalk fun t => { t with confs := vmod t.confs c fun x => { x with home := home } }, .ok) := by
  subst hi
  simp only [writeConf, asFin_val, he]

theorem writeConf_refused (hi : i < 64) (he : 2 ≤ (byteAt e 0).toNat) : writeConf i e s = (s, .invalid) := by
  simp only [writeConf, asFin_of_lt hi, readFlag_none he]

theorem writeCamera_stored {n : Fin 256} {p : Option PointId} (hi : i = n.val) (he : readPointOpt (halfAt e 0) = some p) :
    writeCamera i e s = (s.modTally fun t => { t with camera := t.camera.set n p }, .ok) := by
  subst hi
  simp only [writeCamera, asFin_val, he]

theorem writeCamera_refused (hi : i < 256) (he : 1024 ≤ (halfAt e 0).toNat ∧ halfAt e 0 ≠ 0xFFFF) :
    writeCamera i e s = (s, .invalid) := by
  simp only [writeCamera, asFin_of_lt hi, readPointOpt_none he]

/-! ### Lamp lines (R168) -/

theorem isLinked_iff (l : LampDriver) (w : WireId) : isLinked l w = true ↔ ∃ y ∈ l.links, y.2 = w := by
  simp [isLinked]

theorem writeLine_read {w : WireId} {spare latch auto : Bool} (hi : i = w.val) (h0 : readFlag (byteAt e 0) = some spare)
    (h1 : readFlag (byteAt e 1) = some latch) (h2 : readFlag (byteAt e 2) = some auto) :
    writeLine i e s =
      if isLinked s.lamp w && (if spare then LineRole.spare else .normal) != s.lamp.lines[w].role then (s, .invalid)
      else (modLine w (fun x => { x with
        role := if spare then .spare else .normal, mode := if latch then .latch else .retry, autoSpare := auto }) s, .ok) := by
  subst hi
  simp only [writeLine, asFin_val, h0, h1, h2]

theorem writeLine_refused (hi : i < 48)
    (he : 2 ≤ (byteAt e 0).toNat ∨ 2 ≤ (byteAt e 1).toNat ∨ 2 ≤ (byteAt e 2).toNat) : writeLine i e s = (s, .invalid) := by
  simp only [writeLine, asFin_of_lt hi]
  split
  · next h0 h1 h2 =>
    rcases he with h | h | h
    · cases (readFlag_none h).symm.trans h0
    · cases (readFlag_none h).symm.trans h1
    · cases (readFlag_none h).symm.trans h2
  · rfl

/-! ### Substitution links (R169, R171) -/

theorem linkOf_isNone_iff (l : LampDriver) (j : LampId) : (linkOf l j).isNone = true ↔ ¬∃ y ∈ l.links, y.1 = j := by
  rw [linkOf, Option.isNone_map, Option.isNone_iff_eq_none, List.find?_eq_none]
  simp only [beq_iff_eq, not_exists, not_and]

theorem setLink_replaced {j : LampId} (w : WireId) {links : List (LampId × WireId)} (h : ∃ y ∈ links, y.1 = j) :
    setLink j w links = links.map fun y => if y.1 = j then (j, w) else y := if_pos (by simpa using h)

theorem setLink_appended {j : LampId} (w : WireId) {links : List (LampId × WireId)} (h : ¬∃ y ∈ links, y.1 = j) :
    setLink j w links = links ++ [(j, w)] := if_neg (by simpa using h)

/-- R171: line `w` may carry lamp `j` by a link. -/
def LinkAllowed (l : LampDriver) (j : LampId) (w : WireId) : Prop :=
  l.lines[w].role = .spare ∧ (∀ y ∈ l.links, y.2 = w → y.1 = j) ∧ ((∃ y ∈ l.links, y.1 = j) ∨ l.links.length < 8)

theorem writeSubst_removed {j : LampId} (hi : i = j.val) (he : byteAt e 0 = 0xFF) : writeSubst i e s =
    (s.modLamp fun l => { l with links := l.links.filter fun y => y.1 != j }, .ok) := by
  subst hi
  simp only [writeSubst, asFin_val, if_pos he]

theorem writeSubst_far (hi : i < 40) (he : 48 ≤ (byteAt e 0).toNat) (present : byteAt e 0 ≠ 0xFF) :
    writeSubst i e s = (s, .invalid) := by
  simp only [writeSubst, asFin_of_lt hi, if_neg present, asFin_none he]

theorem line_present (w : WireId) : b8 w.val ≠ 0xFF := fun absent => by
  have value := (b8_toNat_of_lt (n := w.val) (by omega)).symm.trans (congrArg BitVec.toNat absent)
  have limit : (0xFF : Byte).toNat = 255 := rfl
  omega

theorem writeSubst_linked {j : LampId} {w : WireId} (hi : i = j.val) (he : byteAt e 0 = b8 w.val)
    (h : LinkAllowed s.lamp j w) :
    writeSubst i e s = (s.modLamp fun l => { l with links := setLink j w l.links }, .ok) := by
  subst hi
  obtain ⟨spare, own, room⟩ := h
  have alone : ¬(s.lamp.links.any fun y => y.2 == w && y.1 != j) = true := fun taken => by
    obtain ⟨y, hy, named⟩ := List.any_eq_true.1 taken
    rw [Bool.and_eq_true, beq_iff_eq, bne_iff_ne] at named
    exact named.2 (own y hy named.1)
  have fits : ¬((linkOf s.lamp j).isNone && decide (8 ≤ s.lamp.links.length)) = true := by
    rw [Bool.and_eq_true, linkOf_isNone_iff, decide_eq_true_eq]
    exact fun ⟨free, full⟩ => room.elim free (Nat.not_lt.2 full)
  simp only [writeSubst, asFin_val, he, if_neg (line_present w), asFin_b8 (show 48 ≤ 256 by decide), spare, ne_eq,
    not_true_eq_false, if_false, if_neg alone, if_neg fits]

theorem writeSubst_refused {j : LampId} {w : WireId} (hi : i = j.val) (he : byteAt e 0 = b8 w.val)
    (h : ¬LinkAllowed s.lamp j w) : writeSubst i e s = (s, .invalid) := by
  subst hi
  simp only [writeSubst, asFin_val, he, if_neg (line_present w), asFin_b8 (show 48 ≤ 256 by decide)]
  split
  · rfl
  · next spare =>
    split
    · rfl
    · next alone =>
      split
      · rfl
      · next fits =>
        refine absurd ⟨not_not.1 spare, fun y hy hw => ?_, ?_⟩ h
        · by_contra other
          exact alone (List.any_eq_true.2 ⟨y, hy, by simp [hw, other]⟩)
        · rw [Bool.and_eq_true, linkOf_isNone_iff, decide_eq_true_eq, not_and_or, not_not, Nat.not_le] at fits
          exact fits

/-! ### GPIs (R151) -/

theorem writeGpi_stored {n : GpiId} {g : GpiEntry} (hi : i = n.val) (he : readGpi e = some g) : writeGpi i e s =
    (s.modTally fun t => { t with gpi := t.gpi.set n g, gpiState := vmod t.gpiState n (gpiAfterWrite t.gpi[n] g) }, .ok) := by
  subst hi
  simp only [writeGpi, asFin_val, he]

theorem gpiAfterWrite_eq (old new : GpiEntry) (x : GpiState) : gpiAfterWrite old new x =
    if old.enable ≠ new.enable then { cond := false, run := 0, mark := false }
    else if old.latch = true ∧ new.latch = false then { x with mark := false } else x := by
  simp only [gpiAfterWrite, bne_iff_ne, Bool.and_eq_true, Bool.not_eq_true']

theorem readGpi_refused (he : 2 ≤ (byteAt e 0).toNat ∨ 2 ≤ (byteAt e 1).toNat ∨ 16 ≤ (byteAt e 2).toNat ∨
    2 ≤ (byteAt e 3).toNat) : readGpi e = none := by
  rcases he with h | h | h | h
  · simp [readGpi, readFlag_none h]
  · simp [readGpi, readFlag_none h]
  · have far : 15 < (byteAt e 2).toNat := h
    simp [readGpi, far]
  · simp [readGpi, readFlag_none h]

theorem writeGpi_refused (hi : i < 16) (he : readGpi e = none) : writeGpi i e s = (s, .invalid) := by
  simp only [writeGpi, asFin_of_lt hi, he]

end

/-! ### The six tables -/

/-- A yes-or-no field is its flag byte. -/
theorem readFlag_bit (b : Bool) : readFlag (if b then 1 else 0) = some b := readFlag_flagByte b

/-- Settles O52: every SET is judged by its table's rules (`setEntry_written`): routes, conferences, cameras, lamp lines,
links and GPIs, each with what it stores and what it refuses. -/
theorem entriesWritten : Obligations.EntriesWritten := by
  intro s src tag i fresh ok no
  have field : ∀ {x : Byte} {slot : Option SlotId}, (x = match slot with | none => 0xFF | some t => b8 t.val) →
      x = optByte slot := fun {_ slot} h => by cases slot <;> exact h
  refine ⟨fun w d slot e hi size he => ⟨fun low absent => ?_, fun high free => ?_, fun high taken => ?_⟩,
    fun w d e hi size present bad => ?_, fun w c home hi => ?_, fun w hi x bad => ?_, fun w n p hi => ?_,
    fun w hi p far present => ?_, fun w n spare latch auto a b hi => ?_, fun w hi e size bad => ?_, fun w j hi => ?_,
    fun w n g hi small => ?_, fun w hi e size bad => ?_⟩
  · refine setEntry_written fresh w ((if_neg (by rw [size]; decide)).trans (writeRoute_local hi low ?_))
    rw [he, absent]
  · refine (setEntry_written fresh w ((if_neg (by rw [size]; decide)).trans
      (writeRoute_stored hi high (field he) ?_))).trans rfl
    exact fun t ht => slotTaken_eq_false.2 (free t ht)
  · obtain ⟨t, rfl, named⟩ := taken
    exact setEntry_written fresh w ((if_neg (by rw [size]; decide)).trans
      (writeRoute_duplicate hi high (field he) (slotTaken_of_named named)))
  · exact setEntry_written fresh w ((if_neg (Nat.not_lt.2 size)).trans (writeRoute_refused hi present bad))
  · have size : ¬[if home then (1 : Byte) else 0].length < entrySize .conf := Nat.lt_irrefl 1
    have stored := writeConf_stored (s := s) (e := [if home then 1 else 0]) hi (readFlag_bit home)
    exact (setEntry_written fresh w ((if_neg size).trans stored)).trans rfl
  · exact setEntry_written fresh w ((if_neg (Nat.lt_irrefl 1)).trans (writeConf_refused hi bad))
  · have size : ¬(pointBytes p).length < entrySize .camera := by rw [pointBytes_length]; decide
    have read := readPointOpt_pointBytes p []
    rw [List.append_nil] at read
    exact (setEntry_written fresh w ((if_neg size).trans (writeCamera_stored hi read))).trans rfl
  · have point : halfAt (halfBytes p) 0 = p := half_halfBytes p
    refine setEntry_written fresh w ((if_neg (Nat.lt_irrefl 2)).trans (writeCamera_refused (e := halfBytes p) hi ?_))
    rw [point]
    exact ⟨far, present⟩
  · intro role bit
    have size : ¬[bit spare, bit latch, bit auto, a, b].length < entrySize .line := Nat.lt_irrefl 5
    have judged := writeLine_read (s := s) (e := [bit spare, bit latch, bit auto, a, b]) hi (readFlag_bit spare)
      (readFlag_bit latch) (readFlag_bit auto)
    refine ⟨fun kept => ?_, fun linked moved => ?_⟩
    · refine (setEntry_written fresh w ((if_neg size).trans (judged.trans (if_neg ?_)))).trans rfl
      rw [Bool.and_eq_true, isLinked_iff, bne_iff_ne]
      rintro ⟨⟨y, hy, hn⟩, moved⟩
      exact kept.elim (fun free => free y hy hn) moved
    · refine setEntry_written fresh w ((if_neg size).trans (judged.trans (if_pos ?_)))
      rw [Bool.and_eq_true, isLinked_iff, bne_iff_ne]
      exact ⟨linked, moved⟩
  · exact setEntry_written fresh w ((if_neg (Nat.not_lt.2 size)).trans (writeLine_refused hi bad))
  · intro linked
    have size : ∀ x : Byte, ¬[x].length < entrySize .subst := fun _ => Nat.lt_irrefl 1
    refine ⟨?_, fun n spare own => ⟨fun old => ?_, fun new room => ?_⟩, fun n bad => ?_, fun x far present => ?_⟩
    · exact (setEntry_written fresh w ((if_neg (size 0xFF)).trans (writeSubst_removed hi rfl))).trans rfl
    · have stored := writeSubst_linked (s := s) (e := [b8 n.val]) hi rfl ⟨spare, own, .inl old⟩
      rw [State.modLamp, setLink_replaced n old] at stored
      exact setEntry_written fresh w ((if_neg (size _)).trans stored)
    · have stored := writeSubst_linked (s := s) (e := [b8 n.val]) hi rfl ⟨spare, own, .inr room⟩
      rw [State.modLamp, setLink_appended n new] at stored
      exact setEntry_written fresh w ((if_neg (size _)).trans stored)
    · refine setEntry_written fresh w ((if_neg (size _)).trans (writeSubst_refused (w := n) hi rfl ?_))
      rintro ⟨spare, own, room⟩
      rcases bad with normal | ⟨y, hy, hn, other⟩ | ⟨new, full⟩
      · cases spare.symm.trans normal
      · exact other (own y hy hn)
      · exact room.elim new (Nat.not_lt.2 full)
    · exact setEntry_written fresh w ((if_neg (size x)).trans (writeSubst_far (hi ▸ j.isLt) far present))
  · have stored := writeGpi_stored (s := s) hi (readGpi_gpiBytes g small)
    rw [State.modTally, vmod, gpiAfterWrite_eq] at stored
    exact setEntry_written fresh w ((if_neg (Nat.lt_irrefl 5)).trans stored)
  · exact setEntry_written fresh w ((if_neg (Nat.not_lt.2 size)).trans (writeGpi_refused hi (readGpi_refused bad)))

end Sys2Proof.Machine
end

section
/-! SUPPORT. What a step can do to the talker lists, the call register and the substitution links, said once of every command;
and that it keeps them within their laws (O10). -/

namespace Sys2Proof.Machine

open Sys2Proof

-- One theorem after another: all files together, as one text, elaborate on more threads than the memory limit lets run.
set_option Elab.async false

-- In these files an index carries its proof (`v[i]'i.isLt`): the proofs that a search finds weigh on the memory limit too.

/-! ### The entry that gives way (R92, R97, R161) -/

section
variable {α : Type} (r : α → α → Prop) [DecidableRel r]

/-- One step of a search: an element takes the place of the best so far where `r` lets it. -/
def picked (best : Option α) (x : α) : Option α :=
  match best with
  | none => some x
  | some v => if r x v then some x else some v

theorem victimOf_eq_picked (l : List Talker) : victimOf l = l.foldl (picked fun x v => x.prio ≤ v.prio) none := by
  unfold victimOf
  congr
  funext best x
  cases best <;> rfl

theorem staleOf_eq_picked (l : List Talker) : staleOf l = l.foldl (picked fun x v => x.lease < v.lease) none := by
  unfold staleOf
  congr
  funext best x
  cases best <;> rfl

theorem picked_ne_none (best : Option α) (x : α) : picked r best x ≠ none := by
  cases best with
  | none => exact nofun
  | some v =>
    simp only [picked]
    split <;> exact nofun

theorem foldl_picked_none {best : Option α} {l : List α} (h : l.foldl (picked r) best = none) : l = [] := by
  induction l generalizing best with
  | nil => rfl
  | cons x l ih =>
    cases ih h
    exact absurd h (picked_ne_none r best x)

theorem mem_foldl_picked {best : Option α} {l : List α} {v : α} (h : l.foldl (picked r) best = some v) :
    best = some v ∨ v ∈ l := by
  induction l generalizing best with
  | nil => exact .inl h
  | cons x l ih =>
    rcases ih h with now | later
    · cases best with
      | none => exact .inr (Option.some.inj now ▸ List.mem_cons_self)
      | some y =>
        simp only [picked] at now
        split at now
        · exact .inr (Option.some.inj now ▸ List.mem_cons_self)
        · exact .inl now
    · exact .inr (List.mem_cons_of_mem x later)

/-- An element that takes the place of every one before it, and that none after it displaces, is found. -/
theorem foldl_picked_some {pre post : List α} {v : α} (before : ∀ x ∈ pre, r v x) (after : ∀ x ∈ post, ¬r x v) :
    (pre ++ v :: post).foldl (picked r) none = some v := by
  have stays : post.foldl (picked r) (some v) = some v :=
    foldl_keeps (P := (· = some v)) (fun a x hx h => by rw [h]; exact if_neg (after x hx)) rfl
  have taken : picked r (pre.foldl (picked r) none) v = some v := by
    cases h : pre.foldl (picked r) none with
    | none => rfl
    | some x => exact if_pos (before x ((mem_foldl_picked r h).resolve_left nofun))
  rw [List.foldl_append, List.foldl_cons, taken, stays]

end

theorem staleOf_eq_none {l : List Talker} (h : staleOf l = none) : l = [] :=
  foldl_picked_none _ ((staleOf_eq_picked l).symm.trans h)

/-! ### Talker lists (R90, R92, R97) -/

/-- R90: what a talker is known by. -/
def talkerKey (t : Talker) : Byte × OriginId := (t.node, t.origin)

theorem isTalker_iff {node : Byte} {idx : OriginId} {t : Talker} :
    isTalker node idx t = true ↔ t.node = node ∧ t.origin = idx := by
  simp [isTalker]

theorem isTalker_any_iff {node : Byte} {idx : OriginId} {l : List Talker} :
    l.any (isTalker node idx) = true ↔ ∃ x ∈ l, x.node = node ∧ x.origin = idx := by
  simp [isTalker]

theorem listSound_iff_keys {l : List Talker} : ListSound l ↔ l.length ≤ 8 ∧ (l.map talkerKey).Nodup := by
  simp only [ListSound, List.Nodup, List.pairwise_map, talkerKey, ne_eq, Prod.mk.injEq]

/-- R90: who stands in a list, and where, decides whether it is sound. -/
theorem ListSound.of_keys {l l' : List Talker} (h : ListSound l) (keys : l'.map talkerKey = l.map talkerKey) :
    ListSound l' := by
  obtain ⟨room, distinct⟩ := listSound_iff_keys.1 h
  have length : l'.length = l.length := by simpa using congrArg List.length keys
  exact listSound_iff_keys.2 ⟨length ▸ room, keys ▸ distinct⟩

theorem ListSound.map {l : List Talker} (h : ListSound l) {f : Talker → Talker} (key : ∀ x, talkerKey (f x) = talkerKey x) :
    ListSound (l.map f) :=
  h.of_keys (by simp only [List.map_map, Function.comp_def, key])

/-- R90: a list with room takes a talker that it does not hold. -/
theorem ListSound.append {l : List Talker} (h : ListSound l) {t : Talker} (room : l.length < 8)
    (new : ∀ x ∈ l, ¬(x.node = t.node ∧ x.origin = t.origin)) : ListSound (l ++ [t]) := by
  refine ⟨?_, List.pairwise_append.2 ⟨h.2, List.pairwise_singleton .., fun x hx y hy => ?_⟩⟩
  · rw [List.length_append]
    exact room
  · rw [List.mem_singleton.1 hy]
    exact new x hx

theorem not_isTalker_any {node : Byte} {idx : OriginId} {l : List Talker} (h : ¬l.any (isTalker node idx) = true) :
    ∀ x ∈ l, ¬(x.node = node ∧ x.origin = idx) :=
  fun x hx same => h (isTalker_any_iff.2 ⟨x, hx, same⟩)

/-- R92, R97: a talker of the list gives its place to one that the list does not hold. -/
theorem ListSound.replace {l : List Talker} (h : ListSound l) {v t : Talker} (hv : v ∈ l)
    (new : ∀ x ∈ l, ¬(x.node = t.node ∧ x.origin = t.origin)) : ListSound (dropTalker v.node v.origin l ++ [t]) :=
  (dropTalker_sound h ..).append (Nat.lt_of_lt_of_le (dropTalker_length hv) h.1) fun x hx => new x (mem_dropTalker.1 hx).1

theorem ListSound.renew {l : List Talker} (h : ListSound l) (t : Talker) : ListSound (renewIn t l) :=
  h.of_keys (renewIn_keys t l)

theorem admitTalker_present {t : Talker} {l : List Talker} (h : ∃ x ∈ l, x.node = t.node ∧ x.origin = t.origin) :
    admitTalker t l = .renewed (renewIn t l) := if_pos (isTalker_any_iff.2 h)

theorem admitTalker_room {t : Talker} {l : List Talker} (new : ∀ x ∈ l, ¬(x.node = t.node ∧ x.origin = t.origin))
    (room : l.length < 8) : admitTalker t l = .appended (l ++ [t]) := by
  rw [admitTalker, if_neg (isTalker_any_iff.not.2 fun ⟨x, hx, same⟩ => new x hx same), if_pos room]

theorem admitTalker_full {t v : Talker} {l : List Talker} (new : ∀ x ∈ l, ¬(x.node = t.node ∧ x.origin = t.origin))
    (full : 8 ≤ l.length) (hv : victimOf l = some v) : admitTalker t l =
      if v.prio < t.prio then .displaced v (dropTalker v.node v.origin l ++ [t]) else .denied := by
  rw [admitTalker, if_neg (isTalker_any_iff.not.2 fun ⟨x, hx, same⟩ => new x hx same), if_neg (Nat.not_lt.2 full), hv]

/-- R92: the list that admission leaves. -/
def admitted (t : Talker) (l : List Talker) : List Talker :=
  match admitTalker t l with
  | .renewed x => x
  | .appended x => x
  | .displaced _ x => x
  | .denied => l

/-- R92: what admission makes of a sound list is sound. -/
theorem admitted_sound {l : List Talker} (h : ListSound l) (t : Talker) : ListSound (admitted t l) := by
  unfold admitted
  by_cases present : ∃ x ∈ l, x.node = t.node ∧ x.origin = t.origin
  · rw [admitTalker_present present]
    exact h.renew t
  · have new : ∀ x ∈ l, ¬(x.node = t.node ∧ x.origin = t.origin) := fun x hx same => present ⟨x, hx, same⟩
    by_cases room : l.length < 8
    · rw [admitTalker_room new room]
      exact h.append room new
    · cases hv : victimOf l with
      | none =>
        have empty := foldl_picked_none _ ((victimOf_eq_picked l).symm.trans hv)
        exact absurd (empty ▸ Nat.zero_lt_succ 7) room
      | some v =>
        rw [admitTalker_full new (Nat.not_lt.1 room) hv]
        by_cases higher : v.prio < t.prio
        · rw [if_pos higher]
          exact h.replace (victimOf_mem hv) new
        · rw [if_neg higher]
          exact h

/-- R97: a mirror keeps a sound list sound. -/
theorem mirrorOn_sound {l : List Talker} (h : ListSound l) (t : Talker) : ListSound (mirrorOn t l) := by
  unfold mirrorOn
  split
  · exact h.renew t
  · next absent =>
    split
    · next room => exact h.append room (not_isTalker_any absent)
    · next full =>
      split
      · next v hv => exact h.replace (staleOf_mem hv) (not_isTalker_any absent)
      · next none =>
        rw [staleOf_eq_none none]
        exact ⟨Nat.le_add_left 1 7, List.pairwise_singleton ..⟩

/-! ### The call register (R161) -/

/-- R161: what a call is known by. -/
def callKey (c : Call) : PointId × PointId := (c.target, c.caller)

theorem callsSound_iff_keys {t : Tally} : CallsSound t ↔ t.calls.length ≤ 16 ∧ (t.calls.map callKey).Nodup := by
  simp only [CallsSound, List.Nodup, List.pairwise_map, callKey, ne_eq, Prod.mk.injEq]

theorem CallsSound.of_keys {t t' : Tally} (h : CallsSound t) (keys : t'.calls.map callKey = t.calls.map callKey) :
    CallsSound t' := by
  obtain ⟨room, distinct⟩ := callsSound_iff_keys.1 h
  have length : t'.calls.length = t.calls.length := by simpa using congrArg List.length keys
  exact callsSound_iff_keys.2 ⟨length ▸ room, keys ▸ distinct⟩

/-- R161, R162, R163: a register from which calls were removed. -/
theorem CallsSound.of_sublist {t t' : Tally} (h : CallsSound t) (fewer : t'.calls.Sublist t.calls) : CallsSound t' :=
  ⟨fewer.length_le.trans h.1, h.2.sublist fewer⟩

/-- R161: a register with room takes a call of a pair that it does not hold. -/
theorem CallsSound.append {t t' : Tally} (h : CallsSound t) {c : Call} (room : t.calls.length < 16)
    (new : ∀ x ∈ t.calls, ¬isCall c.target c.caller x = true) (calls : t'.calls = t.calls ++ [c]) : CallsSound t' := by
  rw [CallsSound, calls]
  refine ⟨?_, List.pairwise_append.2 ⟨h.2, List.pairwise_singleton .., fun x hx y hy => ?_⟩⟩
  · rw [List.length_append]
    exact room
  · rw [List.mem_singleton.1 hy]
    simpa [isCall] using new x hx

/-- A register without one call that it holds is shorter. -/
theorem dropCall_length {l : List Call} {v : Call} (h : v ∈ l) : (dropCall v.target v.caller l).length < l.length := by
  refine lt_of_le_of_ne (List.length_filter_le _ _) fun same => ?_
  have kept := List.length_filter_eq_length_iff.1 same v h
  simp [isCall] at kept

/-! ### Substitution links (R169, R171, R182) -/

/-- R168: the links and the roles of the lines decide whether the links are sound. -/
theorem LinksSound.of_roles {l l' : LampDriver} (h : LinksSound l) (links : l'.links = l.links)
    (role : ∀ w : WireId, (l'.lines[w]'w.isLt).role = (l.lines[w]'w.isLt).role) : LinksSound l' := by
  obtain ⟨few, lamps, lines, spare⟩ := h
  rw [LinksSound, links]
  exact ⟨few, lamps, lines, fun x hx => (role x.2).trans (spare x hx)⟩

/-- R171: links that were removed. -/
theorem LinksSound.of_sublist {l l' : LampDriver} (h : LinksSound l) (fewer : l'.links.Sublist l.links)
    (lines : l'.lines = l.lines) : LinksSound l' := by
  obtain ⟨few, lamps, wires, spare⟩ := h
  refine ⟨fewer.length_le.trans few, lamps.sublist (fewer.map _), wires.sublist (fewer.map _), fun x hx => ?_⟩
  rw [lines]
  exact spare x (fewer.mem hx)

/-- R169, R171, R182: a link that the rules allow. -/
theorem LinksSound.set {l : LampDriver} (h : LinksSound l) {j : LampId} {w : WireId} (allowed : LinkAllowed l j w) :
    LinksSound { l with links := setLink j w l.links } := by
  obtain ⟨few, lamps, wires, spares⟩ := h
  obtain ⟨spare, own, room⟩ := allowed
  by_cases old : ∃ y ∈ l.links, y.1 = j
  · rw [setLink_replaced w old]
    refine ⟨(List.length_map _).trans_le few, ?_, ?_, fun x hx => ?_⟩
    · have same : ∀ y : LampId × WireId, (if y.1 = j then (j, w) else y).1 = y.1 := fun y => by
        split
        · next h => exact h.symm
        · rfl
      simpa only [List.map_map, Function.comp_def, same] using lamps
    · rw [List.map_map, List.Nodup, List.pairwise_map]
      refine ((List.pairwise_map.1 lamps).and (List.pairwise_map.1 wires)).imp_of_mem fun {a b} ha hb ne => ?_
      obtain ⟨lamp, wire⟩ := ne
      simp only [Function.comp]
      split
      · next ha' =>
        rw [if_neg (ha' ▸ Ne.symm lamp)]
        exact fun same => lamp (ha'.trans (own b hb same.symm).symm)
      · split
        · next ha' hb' => exact fun same => ha' (own a ha same)
        · exact wire
    · obtain ⟨y, hy, rfl⟩ := List.mem_map.1 hx
      split
      · exact spare
      · exact spares y hy
  · rw [setLink_appended w old]
    refine ⟨?_, ?_, ?_, fun x hx => ?_⟩
    · rw [List.length_append]
      exact room.resolve_left old
    · rw [List.map_append, List.nodup_append]
      refine ⟨lamps, List.nodup_singleton _, fun a ha b hb => ?_⟩
      obtain ⟨y, hy, rfl⟩ := List.mem_map.1 ha
      rw [List.mem_singleton.1 hb]
      exact fun same => old ⟨y, hy, same⟩
    · rw [List.map_append, List.nodup_append]
      refine ⟨wires, List.nodup_singleton _, fun a ha b hb => ?_⟩
      obtain ⟨y, hy, rfl⟩ := List.mem_map.1 ha
      rw [List.mem_singleton.1 hb]
      exact fun same => old ⟨y, hy, own y hy same⟩
    · rcases List.mem_append.1 hx with hx | hx
      · exact spares x hx
      · rw [List.mem_singleton.1 hx]
        exact spare

/-- R182: a free spare may carry a lamp that has a link, or a place for one. -/
theorem freeSpare_allowed {l : LampDriver} {j : LampId} {w : WireId} (h : freeSpare l = some w)
    (room : ¬((linkOf l j).isNone && decide (8 ≤ l.links.length)) = true) : LinkAllowed l j w := by
  have free := (firstFin_spec h).1
  simp only [Bool.and_eq_true, beq_iff_eq, Bool.not_eq_true'] at free
  obtain ⟨⟨spare, unlinked⟩, _⟩ := free
  refine ⟨spare, fun y hy hw => ?_, ?_⟩
  · exact absurd ((isLinked_iff l w).2 ⟨y, hy, hw⟩) (Bool.eq_false_iff.1 unlinked)
  · rw [Bool.and_eq_true, linkOf_isNone_iff, decide_eq_true_eq, not_and_or, not_not, Nat.not_le] at room
    exact room

end Sys2Proof.Machine
end

section
/-! SUPPORT. That no command takes the talker lists, the call register or the substitution links out of their laws (O10). -/

namespace Sys2Proof.Machine

open Sys2Proof

-- One theorem after another: all files together, as one text, elaborate on more threads than the memory limit lets run.
set_option Elab.async false

/-! ### What stands of the three registers -/

/-- R90, R161, R169, R171: on the way from `s` to `t` each talker list, the call register and the substitution links keep their
laws. -/
structure RegistersHeld (s t : State) : Prop where
  lists : ∀ l, ListSound (listOf s.talk l) → ListSound (listOf t.talk l)
  calls : CallsSound s.tally → CallsSound t.tally
  links : LinksSound s.lamp → LinksSound t.lamp

section
variable {s t u : State} {bs : List Block}

theorem RegistersHeld.refl (s : State) : RegistersHeld s s := ⟨fun _ => id, id, id⟩

theorem RegistersHeld.trans (h : RegistersHeld s t) (g : RegistersHeld t u) : RegistersHeld s u :=
  ⟨fun l => g.lists l ∘ h.lists l, g.calls ∘ h.calls, g.links ∘ h.links⟩

theorem RegistersHeld.ite {p : Prop} [Decidable p] (h : p → RegistersHeld s t) (g : ¬p → RegistersHeld s u) :
    RegistersHeld s (if p then t else u) := by
  split
  · exact h ‹_›
  · exact g ‹_›

theorem RegistersHeld.foldl {α : Type} {f : State → α → State} (h : ∀ s x, RegistersHeld s (f s x)) (l : List α) (s : State) :
    RegistersHeld s (l.foldl f s) :=
  foldl_keeps (fun a x _ g => g.trans (h a x)) (.refl s)

theorem RegistersHeld.forFin {n : Nat} {f : Fin n → State → State} (h : ∀ i s, RegistersHeld s (f i s)) (s : State) :
    RegistersHeld s (forFin n f s) :=
  .foldl (fun s i => h i s) _ s

theorem RegistersHeld.of_eq (talk : t.talk = s.talk) (tally : t.tally = s.tally) (lamp : t.lamp = s.lamp) : RegistersHeld s t :=
  ⟨fun l => by rw [talk]; exact id, by rw [tally]; exact id, by rw [lamp]; exact id⟩

/-- A step of other blocks leaves the registers. -/
theorem Only.registersHeld (h : Only bs s t) (talk : Block.talk ∉ bs := by decide) (tally : Block.tally ∉ bs := by decide)
    (lamp : Block.lamp ∉ bs := by decide) : RegistersHeld s t :=
  .of_eq (h.keep .talk talk) (h.keep .tally tally) (h.keep .lamp lamp)

/-- A step of the Talk Authority and blocks without a register. -/
theorem Only.listsHeld (h : Only bs s t) (lists : ∀ l, ListSound (listOf s.talk l) → ListSound (listOf t.talk l))
    (tally : Block.tally ∉ bs := by decide) (lamp : Block.lamp ∉ bs := by decide) : RegistersHeld s t := by
  have tally := h.keep .tally tally
  have lamp := h.keep .lamp lamp
  exact ⟨lists, by rw [tally]; exact id, by rw [lamp]; exact id⟩

/-- A step of the Tally Resolver, the Lamp Line Driver and blocks without a register. -/
theorem Only.drivesHeld (h : Only bs s t) (calls : CallsSound s.tally → CallsSound t.tally)
    (links : LinksSound s.lamp → LinksSound t.lamp) (talk : Block.talk ∉ bs := by decide) : RegistersHeld s t := by
  have talk := h.keep .talk talk
  exact ⟨fun l => by rw [talk]; exact id, calls, links⟩

/-- A step of the Tally Resolver and blocks without a register. -/
theorem Only.callsHeld (h : Only bs s t) (calls : CallsSound s.tally → CallsSound t.tally)
    (talk : Block.talk ∉ bs := by decide) (lamp : Block.lamp ∉ bs := by decide) : RegistersHeld s t := by
  have lamp := h.keep .lamp lamp
  exact h.drivesHeld calls (by rw [lamp]; exact id) talk

/-- A step of the Lamp Line Driver and blocks without a register. -/
theorem Only.linksHeld (h : Only bs s t) (links : LinksSound s.lamp → LinksSound t.lamp)
    (talk : Block.talk ∉ bs := by decide) (tally : Block.tally ∉ bs := by decide) : RegistersHeld s t := by
  have tally := h.keep .tally tally
  exact h.drivesHeld (by rw [tally]; exact id) links talk

/-- R103, R167, R188: the registers of either reset are empty. -/
theorem RegistersHeld.of_reset (talk : t.talk = TalkAuthority.reset) (calls : t.tally.calls = []) (links : t.lamp.links = []) :
    RegistersHeld s t := by
  have empty : ListSound [] := ⟨Nat.zero_le _, .nil⟩
  refine ⟨fun l _ => ?_, fun _ => ?_, fun _ => ?_⟩
  · rw [talk]
    cases l with
    | direct m =>
      have none : listOf TalkAuthority.reset (.direct m) = [] := vof_get ..
      rwa [none]
    | conf c =>
      have none : listOf TalkAuthority.reset (.conf c) = [] := congrArg ConfEntry.list (vof_get ..)
      rwa [none]
  · rw [CallsSound, calls]
    exact ⟨Nat.zero_le _, .nil⟩
  · rw [LinksSound, links]
    exact ⟨Nat.zero_le _, .nil, .nil, nofun⟩

end

/-! ### One list changed (R90, R92, R94, R95, R97 to R99) -/

section
variable (l j : ListId) (f : List Talker → List Talker) (s : State)

@[simp] theorem modList_same : listOf (modList l f s).talk l = f (listOf s.talk l) := by
  cases l with
  | direct m => exact vmod_same ..
  | conf c => exact congrArg ConfEntry.list (vmod_same ..)

theorem modList_other {l j : ListId} (h : l ≠ j) : listOf (modList l f s).talk j = listOf s.talk j := by
  cases l with
  | direct m =>
    cases j with
    | direct n => exact (vmod_get ..).trans (if_neg fun same => h (congrArg ListId.direct same))
    | conf d => rfl
  | conf c =>
    cases j with
    | direct n => rfl
    | conf d => exact congrArg ConfEntry.list ((vmod_get ..).trans (if_neg fun same => h (congrArg ListId.conf same)))

theorem modList_registersHeld {l : ListId} {f : List Talker → List Talker}
    (h : ListSound (listOf s.talk l) → ListSound (f (listOf s.talk l))) : RegistersHeld s (modList l f s) := by
  refine (modList_only l f s).listsHeld fun i sound => ?_
  by_cases same : l = i
  · subst same
    rw [modList_same]
    exact h sound
  · rwa [modList_other f s same]

end

/-- A step that leaves the direct lists and the conferences. -/
theorem RegistersHeld.of_lists {bs : List Block} {s t : State} (h : Only bs s t) (direct : t.talk.direct = s.talk.direct)
    (confs : t.talk.confs = s.talk.confs) (tally : Block.tally ∉ bs := by decide) (lamp : Block.lamp ∉ bs := by decide) :
    RegistersHeld s t :=
  h.listsHeld (fun l sound => by cases l <;> simpa only [listOf, direct, confs] using sound) tally lamp

theorem modOrigin_registersHeld (i : OriginId) (f : OriginEntry → OriginEntry) (s : State) :
    RegistersHeld s (modOrigin i f s) :=
  .of_lists (modOrigin_only ..) rfl rfl

/-! ### The Talk Authority -/

theorem outcomeAt_registersHeld (target : TalkTarget) (i : OriginId) (o : TalkOutcome) (s : State) :
    RegistersHeld s (outcomeAt target i o s) := by
  have unwanted : RegistersHeld s (if o = .granted then sendTalkOff target i s else s) :=
    .ite (fun _ => (sendCell_only ..).registersHeld) fun _ => .refl s
  unfold outcomeAt
  dsimp only
  split
  · exact .ite (fun _ => modOrigin_registersHeld ..) fun _ => unwanted
  · exact unwanted

theorem answerTalk_registersHeld (n : Byte) (i : OriginId) (target : TalkTarget) (o : TalkOutcome) (tag : Option Byte)
    (s : State) : RegistersHeld s (answerTalk n i target o tag s) :=
  .ite (fun _ => outcomeAt_registersHeld ..) fun _ => (sendCell_only ..).registersHeld

/-- R92: a list meets a TALK_ON by admission. -/
theorem admitTo_registersHeld (l : ListId) (target : TalkTarget) (t : Talker) (tag : Option Byte) (s : State) :
    RegistersHeld s (admitTo l target t tag s) := by
  have left : ∀ x, admitted t (listOf s.talk l) = x → RegistersHeld s (modList l (fun _ => x) s) := fun x hx =>
    modList_registersHeld s fun sound => hx ▸ admitted_sound sound t
  unfold admitTo
  dsimp only
  split
  · next x hx =>
    exact ((left x (by rw [admitted, hx])).trans (announceListOn_only ..).registersHeld).trans (answerTalk_registersHeld ..)
  · next x hx =>
    exact ((left x (by rw [admitted, hx])).trans (announceListOn_only ..).registersHeld).trans (answerTalk_registersHeld ..)
  · next v x hx =>
    exact ((((left x (by rw [admitted, hx])).trans (announceListOff_only ..).registersHeld).trans
      (announceListOn_only ..).registersHeld).trans (answerTalk_registersHeld ..)).trans (answerTalk_registersHeld ..)
  · exact answerTalk_registersHeld ..

/-- R94, R95, R98: a talker leaves a list. -/
theorem dropTalker_registersHeld (l : ListId) (n : Byte) (i : OriginId) (s : State) :
    RegistersHeld s (modList l (dropTalker n i) s) :=
  modList_registersHeld s fun sound => dropTalker_sound sound n i

theorem handleTalkOff_registersHeld (target : TalkTarget) (n : Byte) (i : OriginId) (s : State) :
    RegistersHeld s (handleTalkOff target n i s) := by
  unfold handleTalkOff
  split
  · exact .refl s
  · exact .ite (fun _ => (dropTalker_registersHeld ..).trans (announceListOff_only ..).registersHeld) fun _ => .refl s

theorem takeTalkOn_registersHeld (src tag : Byte) (m : TalkOnMsg) (s : State) : RegistersHeld s (takeTalkOn src tag m s) := by
  unfold takeTalkOn
  split
  · exact .refl s
  · unfold handleTalkOn
    split
    · exact .refl s
    · exact admitTo_registersHeld ..

theorem takeTalkOff_registersHeld (src : Byte) (m : TalkOffMsg) (s : State) : RegistersHeld s (takeTalkOff src m s) := by
  unfold takeTalkOff
  split
  · exact handleTalkOff_registersHeld ..
  · exact .refl s

theorem takeTalkReply_registersHeld (m : TalkReplyMsg) (s : State) : RegistersHeld s (takeTalkReply m s) := by
  unfold takeTalkReply
  split
  · exact outcomeAt_registersHeld ..
  · exact .refl s

theorem takeConfOn_registersHeld (m : ConfOnMsg) (s : State) : RegistersHeld s (takeConfOn m s) := by
  unfold takeConfOn
  split
  · exact .refl s
  · next t _ => exact .ite (fun _ => .refl s) fun _ => modList_registersHeld s fun sound => mirrorOn_sound sound t

theorem takeConfOff_registersHeld (m : ConfOffMsg) (s : State) : RegistersHeld s (takeConfOff m s) := by
  unfold takeConfOff
  split
  · exact .ite (fun _ => .refl s) fun _ => dropTalker_registersHeld ..
  · exact .refl s

theorem sendOrigin_registersHeld (i : OriginId) (s : State) : RegistersHeld s (sendOrigin i s) := by
  unfold sendOrigin
  split
  · exact .refl s
  · dsimp only
    split
    · exact (modOrigin_registersHeld ..).trans (admitTo_registersHeld ..)
    · exact (modOrigin_registersHeld ..).trans (sendCell_only ..).registersHeld

theorem createOrigin_registersHeld (m : MapId) (k : KeyId) (sub : Option (Fin 4)) (target : TalkTarget) (s : State) :
    RegistersHeld s (createOrigin m k sub target s).1 := by
  unfold createOrigin
  split
  · exact .refl s
  · next i _ =>
    have entered : ∀ x, RegistersHeld s (s.modTalk fun t => { t with origins := t.origins.set i x i.isLt, pointer := i + 1 }) :=
      fun x => .of_lists (modTalk_only ..) rfl rfl
    exact (entered _).trans (sendOrigin_registersHeld ..)

theorem endOrigin_registersHeld (i : OriginId) (s : State) : RegistersHeld s (endOrigin i s) := by
  have ended : RegistersHeld s (s.modTalk fun t => { t with origins := t.origins.set i none i.isLt }) :=
    .of_lists (modTalk_only ..) rfl rfl
  unfold endOrigin
  split
  · exact .refl s
  · dsimp only
    split
    · exact ended.trans (handleTalkOff_registersHeld ..)
    · exact ended.trans (sendCell_only ..).registersHeld

theorem endKeyOrigin_registersHeld (m : MapId) (k : KeyId) (sub : Option (Fin 4)) (s : State) :
    RegistersHeld s (endKeyOrigin m k sub s) := by
  unfold endKeyOrigin
  split
  · exact .refl s
  · exact endOrigin_registersHeld ..

theorem endMapOrigins_registersHeld (m : MapId) (s : State) : RegistersHeld s (endMapOrigins m s) := by
  have ended : ∀ i u, RegistersHeld u (endIfOf m i u) := fun i u => by
    unfold endIfOf
    split
    · exact .ite (fun _ => endOrigin_registersHeld ..) fun _ => .refl u
    · exact .refl u
  exact .forFin ended s

theorem resendOrigin_registersHeld (i : OriginId) (s : State) : RegistersHeld s (resendOrigin i s) :=
  (modOrigin_registersHeld ..).trans (sendOrigin_registersHeld ..)

theorem refreshOrigins_registersHeld (p : OriginId → Bool) (s : State) : RegistersHeld s (refreshOrigins p s) := by
  have refreshed : ∀ i u, RegistersHeld u (refreshOrigin i u) := fun i u => by
    have counted : RegistersHeld u (modOrigin i
      (fun e => if stillAsks e.state then { e with countdown := e.countdown - 1 } else e) u) := modOrigin_registersHeld ..
    exact .ite (fun _ => counted.trans (resendOrigin_registersHeld ..)) fun _ => counted
  exact .forFin (fun i u => .ite (fun _ => refreshed i u) fun _ => .refl u) s

theorem expireTalker_registersHeld (l : ListId) (n : Byte) (i : OriginId) (s : State) :
    RegistersHeld s (expireTalker l n i s) := by
  have dropped := dropTalker_registersHeld l n i s
  unfold expireTalker
  dsimp only
  split
  · exact dropped.trans (reportExpired_only ..).registersHeld
  · exact .ite (fun _ => (dropped.trans (sendCell_only ..).registersHeld).trans (reportExpired_only ..).registersHeld)
      fun _ => dropped

theorem countdownList_registersHeld (l : ListId) (s : State) : RegistersHeld s (countdownList l s) := by
  have lowered : RegistersHeld s (modList l (List.map fun t => { t with lease := t.lease - 1 }) s) :=
    modList_registersHeld s fun sound => sound.map fun _ => rfl
  exact lowered.trans (.foldl (fun _ _ => expireTalker_registersHeld ..) _ _)

theorem talkSwitchPoint_registersHeld (s : State) : RegistersHeld s (talkSwitchPoint s) := by
  have counted : RegistersHeld s s.countChoice := (countChoice_only s).registersHeld
  have leases : ∀ u, RegistersHeld u (countdownLeases u) := fun u =>
    (RegistersHeld.forFin (fun _ _ => countdownList_registersHeld ..) u).trans
      (.forFin (fun _ _ => countdownList_registersHeld ..) _)
  exact ((counted.trans (refreshOrigins_registersHeld ..)).trans (leases _)).trans (refreshOrigins_registersHeld ..)

/-- R99: a new lease changes no one's place. -/
theorem applyLease_registersHeld (lease : Nat) (s : State) : RegistersHeld s (applyLease lease s) := by
  refine (applyLease_only lease s).listsHeld fun l sound => ?_
  have lists : listOf (applyLease lease s).talk l = clampLeases lease (listOf s.talk l) := by
    cases l with
    | direct m => exact vmap_get ..
    | conf c => exact congrArg ConfEntry.list (vmap_get ..)
  rw [lists]
  exact sound.map fun _ => rfl

theorem writeConf_registersHeld (i : Nat) (e : List Byte) (s : State) : RegistersHeld s (writeConf i e s).1 := by
  unfold writeConf
  split
  · exact .refl s
  · split
    · exact .refl s
    · next c _ _ b _ =>
      have lists : ∀ l, listOf { s.talk with confs := vmod s.talk.confs c fun x => { x with home := b } } l = listOf s.talk l
        | .direct m => rfl
        | .conf d => by
          simp only [listOf]
          rw [vmod_get]
          split
          · next same => rw [← same]
          · rfl
      have written : RegistersHeld s (s.modTalk fun t => { t with confs := vmod t.confs c fun x => { x with home := b } }) :=
        (modTalk_only ..).listsHeld fun l sound => (lists l).symm ▸ sound
      exact written

/-- R80: an output that changes its point empties lists, and changes no other. -/
theorem pointMoved_registersHeld (m : MixId) (p : Option PointId) (s : State) : RegistersHeld s (pointMoved m p s) := by
  have only : Only [.talk] s (pointMoved m p s) := modTalk_only ..
  refine only.listsHeld fun l sound => ?_
  cases l with
  | direct j =>
    have entry : listOf (pointMoved m p s).talk (.direct j) =
        if j = m || (m < j && p.isSome && (s.mix.recs[j]'j.isLt).point == p) then [] else listOf s.talk (.direct j) := vof_get ..
    rw [entry]
    split
    · exact ⟨Nat.zero_le _, .nil⟩
    · exact sound
  | conf c => exact sound

theorem writeMix_registersHeld (i : Nat) (e : List Byte) (s : State) : RegistersHeld s (writeMix i e s).1 := by
  unfold writeMix
  split
  · exact .refl s
  · split
    · exact .refl s
    · exact .trans (.ite (fun _ => .refl s) fun _ => pointMoved_registersHeld ..) (modRec_only ..).registersHeld

/-! ### The Tally Resolver -/

theorem LampsOnly.registersHeld {s t : State} (h : LampsOnly s t) : RegistersHeld s t :=
  h.only.drivesHeld (fun sound => sound.of_keys (by rw [h.tally])) fun sound =>
    sound.of_roles (by rw [h.lamp]) fun w => by rw [h.lamp]

theorem resolveFor_registersHeld (p : PointId) (s : State) : RegistersHeld s (resolveFor p s) :=
  .forFin (fun i u => .ite (fun _ => (resolveLamp_lampsOnly i u).registersHeld) fun _ => .refl u) s

theorem modCalls_registersHeld {f : List Call → List Call} {s : State}
    (h : CallsSound s.tally → CallsSound { s.tally with calls := f s.tally.calls }) : RegistersHeld s (modCalls f s) :=
  (modTally_only ..).callsHeld h

theorem dropCall_registersHeld (t c : PointId) (s : State) : RegistersHeld s (modCalls (dropCall t c) s) :=
  modCalls_registersHeld fun sound => sound.of_sublist List.filter_sublist

theorem isCall_iff {t c : PointId} {x : Call} : isCall t c x = true ↔ x.target = t ∧ x.caller = c := by
  simp [isCall]

/-- R161: present, room, full. -/
theorem enterCall_registersHeld (c : Call) (s : State) : RegistersHeld s (enterCall c s) := by
  unfold enterCall
  split
  · refine modCalls_registersHeld fun sound => sound.of_keys ?_
    rw [List.map_map]
    refine List.map_congr_left fun x _ => ?_
    simp only [Function.comp]
    split
    · next same =>
      obtain ⟨target, caller⟩ := isCall_iff.1 same
      rw [callKey, callKey, target, caller]
    · rfl
  · next absent =>
    have new : ∀ x ∈ s.tally.calls, ¬isCall c.target c.caller x = true := fun x hx same =>
      absent (List.any_eq_true.2 ⟨x, hx, same⟩)
    split
    · next room =>
      exact (modCalls_registersHeld fun sound => sound.append room new rfl).trans (resolveFor_registersHeld ..)
    · split
      · next v hv =>
        have entered : RegistersHeld s (modCalls (fun l => dropCall v.target v.caller l ++ [c]) s) :=
          modCalls_registersHeld fun sound =>
            have dropped : CallsSound { s.tally with calls := dropCall v.target v.caller s.tally.calls } :=
              sound.of_sublist List.filter_sublist
            dropped.append (Nat.lt_of_lt_of_le (dropCall_length (shortestCall_mem hv)) sound.1)
              (fun x hx => new x (List.mem_of_mem_filter hx)) rfl
        exact (entered.trans (resolveFor_registersHeld ..)).trans (resolveFor_registersHeld ..)
      · exact .refl s

theorem takeCallFor_registersHeld (t c : PointId) (d : Nat) (s : State) : RegistersHeld s (takeCallFor t c d s) :=
  .ite (fun _ => .refl s) fun _ => enterCall_registersHeld ..

theorem takeCall_registersHeld (m : CallMsg) (s : State) : RegistersHeld s (takeCall m s) := by
  unfold takeCall
  split
  · exact takeCallFor_registersHeld ..
  · exact .refl s

theorem cancelCall_registersHeld (t c : PointId) (s : State) : RegistersHeld s (cancelCall t c s) :=
  .ite (fun _ => (dropCall_registersHeld ..).trans (resolveFor_registersHeld ..)) fun _ => .refl s

theorem takeCancel_registersHeld (m : CancelMsg) (s : State) : RegistersHeld s (takeCancel m s) := by
  unfold takeCancel
  split
  · exact cancelCall_registersHeld ..
  · exact .refl s

/-- R163: calls count down and leave. -/
theorem tallySwitchPoint_registersHeld (e : Epoch) (s : State) : RegistersHeld s (tallySwitchPoint e s) := by
  have stepped : RegistersHeld s (s.modTally (tallyStep e)) := by
    refine (modTally_only ..).callsHeld fun sound => ?_
    have counted : CallsSound { s.tally with calls := s.tally.calls.map fun c => { c with remaining := c.remaining - 1 } } :=
      sound.of_keys (List.map_map ..)
    exact counted.of_sublist List.filter_sublist
  exact stepped.trans (lampsOnly_resolved _).registersHeld

theorem takeTallySet_registersHeld (src : Byte) (m : TallySetMsg) (s : State) : RegistersHeld s (takeTallySet src m s) := by
  have changed : ∀ f : Tally → Tally, (f s.tally).calls = s.tally.calls → RegistersHeld s (s.modTally f) := fun f calls =>
    (modTally_only ..).callsHeld fun sound => sound.of_keys (congrArg (List.map callKey) calls)
  unfold takeTallySet
  split
  · exact .ite (fun _ => (changed _ rfl).trans (report_only ..).registersHeld) fun _ => changed _ rfl
  · exact changed _ rfl

/-- A step of the Tally Resolver that leaves the register. -/
theorem RegistersHeld.of_calls {s t : State} (h : Only [.tally] s t) (calls : t.tally.calls = s.tally.calls) :
    RegistersHeld s t :=
  h.callsHeld fun sound => sound.of_keys (congrArg (List.map callKey) calls)

theorem takeGpiSample_registersHeld (closed : BitVec 16) (s : State) : RegistersHeld s (takeGpiSample closed s) :=
  .ite (fun _ => .of_calls (modTally_only ..) rfl) fun _ => .refl s

theorem writeGpi_registersHeld (i : Nat) (e : List Byte) (s : State) : RegistersHeld s (writeGpi i e s).1 := by
  refine .of_calls (writeGpi_only ..) ?_
  unfold writeGpi
  split
  · rfl
  · split <;> rfl

theorem writeCamera_registersHeld (i : Nat) (e : List Byte) (s : State) : RegistersHeld s (writeCamera i e s).1 := by
  refine .of_calls (writeCamera_only ..) ?_
  unfold writeCamera
  split
  · rfl
  · split <;> rfl

theorem writeTallymap_registersHeld (i : Nat) (e : List Byte) (s : State) : RegistersHeld s (writeTallymap i e s).1 := by
  unfold writeTallymap
  split
  · exact .refl s
  · split
    · exact .refl s
    · exact (RegistersHeld.of_calls (modTally_only ..) rfl).trans (resolveLamp_lampsOnly ..).registersHeld

/-! ### The Lamp Line Driver -/

/-- A step of the Lamp Line Driver that leaves the links and the roles of the lines. -/
theorem RegistersHeld.of_roles {s t : State} (h : Only [.lamp] s t) (links : t.lamp.links = s.lamp.links)
    (role : ∀ w : WireId, (t.lamp.lines[w]'w.isLt).role = (s.lamp.lines[w]'w.isLt).role) : RegistersHeld s t :=
  h.linksHeld fun sound => sound.of_roles links role

theorem modLine_registersHeld (w : WireId) {f : LampLine → LampLine} (role : ∀ x, (f x).role = x.role) (s : State) :
    RegistersHeld s (modLine w f s) := by
  refine .of_roles (modLine_only ..) rfl fun i => ?_
  have line : (modLine w f s).lamp.lines[i]'i.isLt =
      if w = i then f (s.lamp.lines[w]'w.isLt) else s.lamp.lines[i]'i.isLt := vmod_get ..
  rw [line]
  split
  · next same => rw [role, same]
  · rfl

theorem lampPeriodStart_registersHeld (s : State) : RegistersHeld s (lampPeriodStart s) :=
  .ite (fun _ => .of_roles (modLamp_only ..) rfl fun w =>
      (congrArg LampLine.role (vmap_get judgePeriod s.lamp.lines w)).trans rfl)
    fun _ => .refl s

theorem clearLampFaults_registersHeld (s : State) : RegistersHeld s (clearLampFaults s) :=
  .of_roles (clearLampFaults_only s) rfl fun w => (congrArg LampLine.role (vmap_get clearFault s.lamp.lines w)).trans rfl

theorem lampFrame_registersHeld (s : State) : RegistersHeld s (lampFrame s) :=
  .of_roles (lampFrame_only s) rfl fun w => (congrArg LampLine.role (lampFrame_line s w)).trans rfl

/-- R182: a spare that is installed is a free one, and the links have room for it. -/
theorem autoSpare_registersHeld (j : LampId) (w : WireId) (s : State) : RegistersHeld s (autoSpare j w s) := by
  unfold autoSpare
  split
  · split
    · exact (report_only ..).registersHeld
    · next spare free =>
      split
      · exact (report_only ..).registersHeld
      · next room =>
        have linked : RegistersHeld s (s.modLamp fun l => { l with links := setLink j spare l.links }) :=
          (modLamp_only ..).linksHeld fun sound => sound.set (freeSpare_allowed free room)
        exact linked.trans (report_only ..).registersHeld
  · exact .refl s

theorem latchLine_registersHeld (j : LampId) (w : WireId) (s : State) : RegistersHeld s (latchLine j w s) := by
  unfold latchLine
  refine ((modLine_registersHeld w ?_ s).trans (report_only ..).registersHeld).trans (autoSpare_registersHeld ..)
  exact fun _ => rfl

theorem faultOn_registersHeld (j : LampId) (w : WireId) (s : State) : RegistersHeld s (faultOn j w s) := by
  unfold faultOn
  have counted := modLine_registersHeld w (f := fun x =>
    { x with count := min (x.count + 1) 8, onSeen := true, faultSeen := true, retryOff := true, tripped := true })
    (fun _ => rfl) s
  dsimp only
  split
  · exact counted.trans (latchLine_registersHeld ..)
  · refine counted.trans (modLine_registersHeld w ?_ _)
    exact fun _ => rfl

theorem takeFaultReads_registersHeld (reads : BitVec 48) (s : State) : RegistersHeld s (takeFaultReads reads s) := by
  have sensed : ∀ w u, RegistersHeld u (senseFault w u) := fun w u => by
    unfold senseFault
    split
    · exact .refl u
    · exact .ite (fun _ => faultOn_registersHeld ..) fun _ => .refl u
  have all : ∀ u, RegistersHeld u (senseAll reads u) := fun u =>
    .forFin (fun w u => .ite (fun _ => sensed w u) fun _ => .refl u) u
  have noted : RegistersHeld s (s.modLamp fun l => { l with senseDue := false }) :=
    .of_roles (modLamp_only ..) rfl fun _ => rfl
  exact .ite (fun _ => noted.trans (all _)) fun _ => .refl s

/-- R168: a line keeps its role, or is not linked. -/
theorem modLine_role_registersHeld {w : WireId} {f : LampLine → LampLine} {s : State}
    (kept : isLinked s.lamp w = true → (f (s.lamp.lines[w]'w.isLt)).role = (s.lamp.lines[w]'w.isLt).role) :
    RegistersHeld s (modLine w f s) := by
  refine (modLine_only ..).linksHeld fun sound => ?_
  obtain ⟨few, lamps, wires, spares⟩ := sound
  refine ⟨few, lamps, wires, fun x hx => ?_⟩
  have line : (modLine w f s).lamp.lines[x.2]'x.2.isLt =
      if w = x.2 then f (s.lamp.lines[w]'w.isLt) else s.lamp.lines[x.2]'x.2.isLt := vmod_get ..
  rw [line]
  split
  · next same => exact (kept ((isLinked_iff ..).2 ⟨x, hx, same.symm⟩)).trans (same ▸ spares x hx)
  · exact spares x hx

theorem writeLine_registersHeld (i : Nat) (e : List Byte) (s : State) : RegistersHeld s (writeLine i e s).1 := by
  unfold writeLine
  split
  · exact .refl s
  · next w _ =>
    split
    · next role latch auto _ _ _ =>
      dsimp only
      rw [apply_ite Prod.fst]
      refine .ite (fun _ => .refl s) fun kept => modLine_role_registersHeld fun linked => ?_
      rwa [linked, Bool.true_and, bne_iff_ne, not_not] at kept
    · exact .refl s

theorem writeSubst_registersHeld (i : Nat) (e : List Byte) (s : State) : RegistersHeld s (writeSubst i e s).1 := by
  unfold writeSubst
  split
  · exact .refl s
  · next j _ =>
    split
    · have unlinked : RegistersHeld s (s.modLamp fun l => { l with links := l.links.filter fun x => x.1 != j }) :=
        (modLamp_only ..).linksHeld fun sound => sound.of_sublist List.filter_sublist rfl
      exact unlinked
    · split
      · exact .refl s
      · next w _ =>
        split
        · exact .refl s
        · next spare =>
          split
          · exact .refl s
          · next alone =>
            split
            · exact .refl s
            · next room =>
              have allowed : LinkAllowed s.lamp j w := by
                refine ⟨not_not.1 spare, fun y hy hw => ?_, ?_⟩
                · by_contra other
                  exact alone (List.any_eq_true.2 ⟨y, hy, by simp [hw, other]⟩)
                · rw [Bool.and_eq_true, linkOf_isNone_iff, decide_eq_true_eq, not_and_or, not_not, Nat.not_le] at room
                  exact room
              have linked : RegistersHeld s (s.modLamp fun l => { l with links := setLink j w l.links }) :=
                (modLamp_only ..).linksHeld fun sound => sound.set allowed
              exact linked

end Sys2Proof.Machine
end

section
/-! SUPPORT. The same walk through the keys, the switch points, the requests and the frames; O10. -/

namespace Sys2Proof.Machine

open Sys2Proof

-- One theorem after another: all files together, as one text, elaborate on more threads than the memory limit lets run.
set_option Elab.async false

/-! ### Keys and panel lines (R122 to R143) -/

theorem startRoute_registersHeld (m : MapId) (k : KeyId) (n : Byte) (d : DestId) (x : Source) (s : State) :
    RegistersHeld s (startRoute m k n d x s) :=
  .ite (fun _ => (routerTake_only ..).registersHeld.trans (modKey_only ..).registersHeld)
    fun _ => (createCell_only ..).registersHeld.trans (modKey_only ..).registersHeld

theorem startTalk_registersHeld (m : MapId) (k : KeyId) (t : TalkTarget) (s : State) : RegistersHeld s (startTalk m k t s) :=
  .ite (fun _ => createOrigin_registersHeld ..)
    fun _ => (createOrigin_registersHeld ..).trans (modKey_only ..).registersHeld

theorem startTallyTalk_registersHeld (m : MapId) (k : KeyId) (p : PointId) (s : State) :
    RegistersHeld s (startTallyTalk m k p s) := by
  unfold startTallyTalk
  dsimp only
  split
  · exact (modKey_only ..).registersHeld
  · exact .ite (fun _ => createOrigin_registersHeld ..)
      fun _ => (createOrigin_registersHeld ..).trans (modKey_only ..).registersHeld

theorem endTallyTalk_registersHeld (m : MapId) (k : KeyId) (p : PointId) (s : State) :
    RegistersHeld s (endTallyTalk m k p s) := by
  unfold endTallyTalk
  dsimp only
  refine .trans ?_ (modKey_only ..).registersHeld
  split
  · exact .refl s
  · exact endOrigin_registersHeld ..

theorem answerCall_registersHeld (m : MapId) (p : PointId) (s : State) : RegistersHeld s (answerCall m p s) := by
  unfold answerCall
  split
  · exact .refl s
  · exact .ite (fun _ => (sendCell_only ..).registersHeld.trans (cancelCall_registersHeld ..)) fun _ => .refl s

/-- R107, R137: a key that takes or gives up a subscription. -/
theorem toggled_registersHeld (m : MapId) (k : KeyId) (x : MixId) (c : ConfId) (f : KeyState → KeyState) (p : Prop)
    [Decidable p] (s : State) :
    RegistersHeld s (if p then startWindow m k (modKey m k f (toggleSub x c s).1) else modKey m k f (toggleSub x c s).1) := by
  have toggled : RegistersHeld s (modKey m k f (toggleSub x c s).1) :=
    (toggleSub_only ..).registersHeld.trans (modKey_only ..).registersHeld
  exact .ite (fun _ => toggled.trans (modKey_only ..).registersHeld) fun _ => toggled

theorem activateFn_registersHeld (m : MapId) (k : KeyId) (s : State) : RegistersHeld s (activateFn m k s) := by
  unfold activateFn
  split
  · exact .refl s
  · exact (answerCall_registersHeld ..).trans (startTalk_registersHeld ..)
  · exact startTalk_registersHeld ..
  · exact (modKey_only ..).registersHeld.trans (.foldl (fun _ _ => startTallyTalk_registersHeld ..) _ _)
  · exact toggled_registersHeld ..
  · split
    · exact (modKey_only ..).registersHeld
    · exact (sendCell_only ..).registersHeld.trans (takeCallFor_registersHeld ..)
  · exact startRoute_registersHeld ..

theorem endKeyOrigins_registersHeld (m : MapId) (k : KeyId) (s : State) : RegistersHeld s (endKeyOrigins m k s) :=
  (endKeyOrigin_registersHeld ..).trans (.forFin (fun _ _ => endKeyOrigin_registersHeld ..) _)

theorem deactivateFn_registersHeld (m : MapId) (k : KeyId) (s : State) : RegistersHeld s (deactivateFn m k s) := by
  unfold deactivateFn
  split
  · exact .refl s
  · exact .refl s
  · exact .refl s
  · exact (endKeyOrigin_registersHeld ..).trans (modKey_only ..).registersHeld
  · exact (endKeyOrigin_registersHeld ..).trans (modKey_only ..).registersHeld
  · exact (endKeyOrigins_registersHeld ..).trans (modKey_only ..).registersHeld
  · exact .ite (fun _ => .refl s) fun _ => toggled_registersHeld ..

theorem setActive_registersHeld (m : MapId) (k : KeyId) (on : Bool) (s : State) : RegistersHeld s (setActive m k on s) :=
  .ite (fun _ => .refl s) fun _ => .ite
    (fun _ => (modKey_only ..).registersHeld.trans (activateFn_registersHeld ..))
    fun _ => (modKey_only ..).registersHeld.trans (deactivateFn_registersHeld ..)

theorem takeEdge_registersHeld (m : MapId) (k : KeyId) (press : Bool) (s : State) :
    RegistersHeld s (takeEdge m k press s) := by
  have moved : ∀ f on, RegistersHeld s (setActive m k on (modKey m k f s)) := fun f on =>
    (modKey_only ..).registersHeld.trans (setActive_registersHeld ..)
  unfold takeEdge
  split
  · exact setActive_registersHeld ..
  · exact .ite (fun _ => setActive_registersHeld ..) fun _ => .refl s
  · refine .ite (fun _ => ?_) fun _ => ?_
    · unfold autoPress
      split
      · exact moved ..
      · exact moved ..
      · exact .refl s
    · unfold autoRelease
      split
      · exact (modKey_only ..).registersHeld
      · exact moved ..
      · exact (modKey_only ..).registersHeld
      · exact .refl s

theorem scanKey_registersHeld (m : MapId) (p : Nat) (k : KeyId) (a : State × List (KeyId × Bool)) :
    RegistersHeld a.1 (scanKey m p k a).1 := by
  unfold scanKey
  dsimp only
  split
  · exact (modKey_only ..).registersHeld
  · split
    · exact (modKey_only ..).registersHeld
    · split
      · exact (modKey_only ..).registersHeld.trans (modKey_only ..).registersHeld
      · exact (modKey_only ..).registersHeld.trans (takeEdge_registersHeld ..)

theorem scanKeys_registersHeld (i : LineId) (m : MapId) (sc : Scan) (s : State) : RegistersHeld s (scanKeys i m sc s) := by
  have scanned : RegistersHeld s (forFin 32 (scanKey m sc.pressed) (s, [])).1 :=
    forFin_induct (α := State × List (KeyId × Bool)) (fun a => RegistersHeld s a.1) (scanKey m sc.pressed)
      (fun _ _ h => h.trans (scanKey_registersHeld ..)) (s, []) (.refl s)
  exact scanned.trans (.foldl (fun _ _ => (reportKey_only ..).registersHeld) _ _)

theorem loseLine_registersHeld (i : LineId) (id : Byte) (s : State) : RegistersHeld s (loseLine i id s) := by
  have told : RegistersHeld s (reportPanel i (s.panel.lines[i]'i.isLt).state id (modPanelLine i toAbsent s)) :=
    (modPanelLine_only ..).registersHeld.trans (reportPanel_only ..).registersHeld
  unfold loseLine
  dsimp only
  split
  · exact ((told.trans (endMapOrigins_registersHeld ..)).trans (.forFin (fun _ _ => setActive_registersHeld ..) _)).trans
      (clearKeys_only ..).registersHeld
  · exact told

theorem enterLine_registersHeld (i : LineId) (sc : Scan) (s : State) : RegistersHeld s (enterLine i sc s) := by
  have entered : ∀ (f : PanelLine → PanelLine) (m : Option MapId), RegistersHeld s (match m with
      | some m => bindKeys m sc.pressed (modPanelLine i f s)
      | none => modPanelLine i f s) := fun f m => by
    cases m with
    | none => exact (modPanelLine_only ..).registersHeld
    | some m => exact (modPanelLine_only ..).registersHeld.trans (bindKeys_only ..).registersHeld
  exact .ite (fun _ => entered ..) fun _ => (entered ..).trans (report_only ..).registersHeld

theorem takeScan_registersHeld (i : LineId) (bs : List Byte) (s : State) : RegistersHeld s (takeScan i bs s) := by
  have answered : ∀ k s, RegistersHeld s (answerLamps i (handKnob i k s)) := fun k s =>
    (handKnob_only ..).registersHeld.trans (answerLamps_only ..).registersHeld
  unfold takeScan
  split
  · exact (modPanelLine_only ..).registersHeld
  · refine .ite (fun _ => (modPanelLine_only ..).registersHeld.trans (answered ..)) fun _ => .trans ?_ (answered ..)
    split
    · exact (modPanelLine_only ..).registersHeld.trans (scanKeys_registersHeld ..)
    · exact .ite (fun _ => (loseLine_registersHeld ..).trans (enterLine_registersHeld ..)) fun _ => enterLine_registersHeld ..

theorem announceBus_registersHeld (s : State) (b : BusId) : RegistersHeld s (announceBus s b) := by
  have resolved : ∀ m k cap s, RegistersHeld s (reresolveKey m k b cap s) := fun m k cap s =>
    ((RegistersHeld.foldl (fun _ _ => endTallyTalk_registersHeld ..) _ s).trans (modKey_only ..).registersHeld).trans
      (.foldl (fun _ _ => startTallyTalk_registersHeld ..) _ _)
  have told : ∀ m k s, RegistersHeld s (announceToKey b m k s) := fun m k s => by
    unfold announceToKey
    split
    · exact .ite (fun _ => resolved ..) fun _ => .refl s
    · exact .refl s
  exact .forFin (fun m s => .forFin (fun k s => told m k s) s) s

/-! ### Switch points (R31 to R36) -/

theorem deliver_registersHeld (e : Epoch) (s : State) : RegistersHeld s (deliver e s) := by
  have tally : ∀ s, RegistersHeld s (tallyDelivery e s) := fun s =>
    (tallySwitchPoint_registersHeld ..).trans (.foldl announceBus_registersHeld _ _)
  have lamp : ∀ s, RegistersHeld s (lampSwitchPoint e s) := fun s =>
    .of_roles (lampSwitchPoint_only e s) rfl fun _ => rfl
  exact ((((((trunkSwitchPoint_only s).registersHeld.trans (routerSwitchPoint_only e _).registersHeld).trans
    (talkSwitchPoint_registersHeld _)).trans (keySwitchPoint_only _).registersHeld).trans (tally _)).trans
    (lamp _)).trans (mgmtSwitchPoint_only _).registersHeld

theorem makeHead_registersHeld (o : SpOrigin) (s : State) : RegistersHeld s (makeHead o s) :=
  (((modSp_only ..).registersHeld.trans (modSp_only ..).registersHeld).trans (modTrunk_only ..).registersHeld).trans
    (deliver_registersHeld ..)

theorem actOnMarker_registersHeld (e : Epoch) (s : State) : RegistersHeld s (actOnMarker e s) :=
  ((modSp_only ..).registersHeld.trans (modTrunk_only ..).registersHeld).trans (deliver_registersHeld ..)

theorem takeMarker_registersHeld (e : Epoch) (s : State) : RegistersHeld s (takeMarker e s) := by
  have restarted : RegistersHeld s (restartFreeRun s) := .ite (fun _ => (modSp_only ..).registersHeld) fun _ => .refl s
  exact .ite (fun _ => .ite (fun _ => actOnMarker_registersHeld ..) fun _ => .refl s) fun _ =>
    .ite (fun _ => restarted) fun _ => restarted.trans (actOnMarker_registersHeld ..)

theorem localPoint_registersHeld (s : State) : RegistersHeld s (localPoint s) := by
  refine .ite (fun _ => ?_) fun _ => .refl s
  split
  · exact .refl s
  · exact ((modSp_only ..).registersHeld.trans (modTrunk_only ..).registersHeld).trans (deliver_registersHeld ..)

theorem scheduledPoint_registersHeld (s : State) : RegistersHeld s (scheduledPoint s) := by
  refine .ite (fun _ => ?_) fun _ => .refl s
  split
  · exact .refl s
  · exact .ite (fun _ => (modSp_only ..).registersHeld.trans (makeHead_registersHeld ..)) fun _ => (modSp_only ..).registersHeld

theorem takePulse_registersHeld (s : State) : RegistersHeld s (takePulse s) := by
  have restored : ∀ s, RegistersHeld s (restoreReference s) := fun s =>
    .ite (fun _ => (modSp_only ..).registersHeld.trans (report_only ..).registersHeld) fun _ => .refl s
  exact .ite (fun _ => (modSp_only ..).registersHeld.trans (restored _)) fun _ => .refl s

theorem loseReference_registersHeld (s : State) : RegistersHeld s (loseReference s) :=
  .ite (fun _ => (modSp_only ..).registersHeld.trans (report_only ..).registersHeld) fun _ => .refl s

/-! ### Requests (R189 to R205) -/

theorem writeKeyMap_registersHeld (i : Nat) (e : List Byte) (s : State) : RegistersHeld s (writeKeyMap i e s).1 := by
  have unbound : ∀ m s, RegistersHeld s (unbindMap m s) := fun m s => by
    unfold unbindMap
    split
    · exact .refl s
    · exact loseLine_registersHeld ..
  have unbind : ∀ m old new s, RegistersHeld s (unbindForMap m old new s) := fun m old new s => by
    have own : RegistersHeld s (if old.panelId != new.panelId || old.listen != new.listen then unbindMap m s else s) :=
      .ite (fun _ => unbound ..) fun _ => .refl s
    exact .ite (fun _ => own.trans (.forFin (fun _ _ => .ite (fun _ => unbound ..) fun _ => .refl _) _)) fun _ => own
  unfold writeKeyMap
  split
  · exact .refl s
  · split
    · exact .refl s
    · dsimp only
      exact (unbind ..).trans (modPanel_only ..).registersHeld

theorem writeKey_registersHeld (i : Nat) (e : List Byte) (s : State) : RegistersHeld s (writeKey i e s).1 := by
  unfold writeKey
  split
  · exact .refl s
  · split
    · exact .refl s
    · dsimp only
      refine .trans (.ite (fun _ => ?_) fun _ => .refl s) (modPanel_only ..).registersHeld
      exact (setActive_registersHeld ..).trans (modKey_only ..).registersHeld

theorem writeNode_registersHeld (i : Nat) (e : List Byte) (s : State) : RegistersHeld s (writeNode i e s).1 := by
  have stored : ∀ p v, RegistersHeld s (storeParam p v s) := fun p v =>
    .ite (fun _ => (modMgmt_only ..).registersHeld.trans (applyLease_registersHeld ..)) fun _ => (modMgmt_only ..).registersHeld
  unfold writeNode
  split
  · exact .refl s
  · unfold writeParam
    split
    · exact .refl s
    · split
      · exact .refl s
      · exact stored ..

theorem writeEntry_registersHeld (t : Table) (i : Nat) (e : List Byte) (s : State) :
    RegistersHeld s (writeEntry t i e s).1 := by
  unfold writeEntry
  split
  · exact .refl s
  · cases t with
    | route => exact (writeRoute_only ..).registersHeld
    | mix => exact writeMix_registersHeld ..
    | conf => exact writeConf_registersHeld ..
    | keymap => exact writeKeyMap_registersHeld ..
    | key => exact writeKey_registersHeld ..
    | camera => exact writeCamera_registersHeld ..
    | tallymap => exact writeTallymap_registersHeld ..
    | line => exact writeLine_registersHeld ..
    | subst => exact writeSubst_registersHeld ..
    | gpi => exact writeGpi_registersHeld ..
    | sched => exact (writeSched_only ..).registersHeld
    | node => exact writeNode_registersHeld ..

theorem serveSet_registersHeld (src t : Byte) (i : Half) (e : List Byte) (s : State) :
    RegistersHeld s (serveSet src t i e s).1 := by
  unfold serveSet
  split
  · exact .refl s
  · split
    · exact .refl s
    · split
      · exact .refl s
      · exact writeEntry_registersHeld ..

theorem feedLoad_registersHeld (full : Bool) (fuel : Nat) (bs : List Byte) (r : LoadRec) (s : State) :
    RegistersHeld s (feedLoad full fuel bs r s).1 := by
  induction fuel generalizing bs r s with
  | zero => exact .refl s
  | succ fuel ih =>
    unfold feedLoad
    dsimp only
    split
    · split <;> exact .refl s
    · split
      · exact .refl s
      · split
        · exact writeEntry_registersHeld ..
        · exact (writeEntry_registersHeld ..).trans (ih ..)

theorem serveLoadData_registersHeld (src seg : Byte) (d : List Byte) (s : State) :
    RegistersHeld s (serveLoadData src seg d s).1 := by
  have recorded : ∀ l s, RegistersHeld s (setLoad l s) := fun _ _ => (modMgmt_only ..).registersHeld
  unfold serveLoadData
  split
  · exact .refl s
  · split
    · exact .refl s
    · split
      · exact .refl s
      · split
        · exact (feedLoad_registersHeld ..).trans (recorded ..)
        · split
          · exact recorded ..
          · exact .refl s

/-- R202: no item of a CLEAR is a register's. -/
theorem clearItems_registersHeld (items : Nat) (s : State) : RegistersHeld s (clearItems items s) := by
  rw [clearItems_eq]
  refine ⟨fun _ => id, fun sound => ?_, fun sound => ?_⟩
  · dsimp only
    split
    · exact sound.of_keys rfl
    · exact sound
  · dsimp only
    split
    · exact (clearLampFaults_registersHeld s).links sound
    · exact sound

theorem serve_registersHeld (src : Byte) (r : Request) (s : State) : RegistersHeld s (serve src r s).1 := by
  cases r with
  | set t i e => exact serveSet_registersHeld ..
  | loadOpen t i n => exact (serveLoadOpen_only ..).registersHeld
  | loadData seg d => exact serveLoadData_registersHeld ..
  | take m => exact (takeRequest_only ..).registersHeld
  | protect d m => exact (routerProtect_only ..).registersHeld
  | release d => exact (routerRelease_only ..).registersHeld
  | airlock d => exact (routerAirlock_only ..).registersHeld
  | showLock => exact (modMgmt_only s fun m => { m with showLock := true }).registersHeld
  | clear items =>
    show RegistersHeld s (serveClear items s).1
    unfold serveClear
    split
    · exact .refl s
    · exact clearItems_registersHeld ..
  | resetExecute =>
    show RegistersHeld s (serveExecute src s).1
    unfold serveExecute
    split
    · exact .of_reset rfl rfl rfl
    · exact .refl s
  | query | status | identify | resetPrepare | unknown | short => exact .refl s

theorem takeRequestCell_registersHeld (src tag : Byte) (r : Request) (s : State) :
    RegistersHeld s (takeRequestCell src tag r s) := by
  have served : RegistersHeld s (serveNew src tag r s) := by
    have answered := (serve_registersHeld src r s).trans (answer_only src tag (requestCode r)
      (codeByte (serve src r s).2.code :: (serve src r s).2.fields) _).registersHeld
    exact .ite (fun _ => answered.trans (modTrunk_only ..).registersHeld) fun _ => answered
  unfold takeRequestCell
  split
  · exact .ite (fun _ => (sendCell_only ..).registersHeld) fun _ => served
  · exact served

theorem receiveCell_registersHeld (c : Cell) (s : State) : RegistersHeld s (receiveCell c s) := by
  unfold receiveCell
  split
  · next k _ =>
    cases k with
    | talkOn => exact takeTalkOn_registersHeld ..
    | talkOff => exact takeTalkOff_registersHeld ..
    | talkReply => exact takeTalkReply_registersHeld ..
    | confOn => exact takeConfOn_registersHeld ..
    | confOff => exact takeConfOff_registersHeld ..
    | call => exact takeCall_registersHeld ..
    | callCancel => exact takeCancel_registersHeld ..
    | tallySet => exact takeTallySet_registersHeld ..
    | request => exact takeRequestCell_registersHeld ..
    | reply => exact (takeReply_only ..).registersHeld
    | event => exact .refl s
  all_goals exact (modCells_only ..).registersHeld

/-! ### Frames and the sample period (R3 to R19, R61 to R63) -/

theorem judgeConflict_registersHeld (f : WireFrame) (s : State) : RegistersHeld s (judgeConflict f s) := by
  have yielded : RegistersHeld s (yieldHead s) :=
    ((modTrunk_only ..).registersHeld.trans (modSp_only ..).registersHeld).trans (rolesChanged_only ..).registersHeld
  refine .ite (fun _ => .ite (fun _ => ?_) fun _ => .ite (fun _ => .refl s) fun _ => ?_) fun _ => .refl s
  · exact yielded.trans (report_only ..).registersHeld
  · exact (modTrunk_only ..).registersHeld.trans (report_only ..).registersHeld

theorem judgeMode_registersHeld (f : WireFrame) (s : State) : RegistersHeld s (judgeMode f s) :=
  .ite (fun _ => ((modTrunk_only ..).registersHeld.trans (rolesChanged_only ..).registersHeld).trans
    (reportLinkChange_only ..).registersHeld) fun _ => .refl s

theorem enterBuffer_registersHeld (p : Port) (f : WireFrame) (s : State) : RegistersHeld s (enterBuffer p f s) :=
  .ite (fun _ => (modTrunk_only ..).registersHeld) fun _ => .refl s

theorem actOnFrame_registersHeld (marker : Option Epoch) (cell : Option Cell) (s : State) :
    RegistersHeld s (actOnFrame marker cell s) := by
  have counted : RegistersHeld s s.countChoice := (countChoice_only s).registersHeld
  unfold actOnFrame
  split
  · exact .refl s
  · exact takeMarker_registersHeld ..
  · exact receiveCell_registersHeld ..
  · exact .ite (fun _ => (counted.trans (takeMarker_registersHeld ..)).trans (receiveCell_registersHeld ..))
      fun _ => (counted.trans (receiveCell_registersHeld ..)).trans (takeMarker_registersHeld ..)

theorem readFrame_registersHeld (p : Port) (f : WireFrame) (s : State) : RegistersHeld s (readFrame p f s) := by
  have counted : ∀ fate s, RegistersHeld s (countBadCell p fate s) := fun fate s => by
    unfold countBadCell
    split
    · exact .ite (fun _ => (modTrunk_only ..).registersHeld) fun _ => .refl s
    · exact .refl s
  have copied : ∀ b s, RegistersHeld s (copySlots p b s) := fun b s => (modTrunk_only ..).registersHeld
  exact (((((judgeConflict_registersHeld f s).trans (judgeMode_registersHeld ..)).trans (counted _ _)).trans
    (copied _ _)).trans (enterBuffer_registersHeld ..)).trans (actOnFrame_registersHeld ..)

theorem lockMoved_registersHeld (old : Trunk) (p : Port) (f : PortState → PortState) (s : State) :
    RegistersHeld s (lockMoved old p (s.modTrunk (modPort p f))) :=
  (modTrunk_only ..).registersHeld.trans (lockMoved_only ..).registersHeld

theorem arrive_registersHeld (p : Port) (f : WireFrame) (s : State) : RegistersHeld s (arrive p f s) := by
  have counted := lockMoved_registersHeld s.trunk p (countFrame (headerGood f)) s
  refine .ite (fun _ => .ite (fun _ => ?_) fun _ => ?_) fun _ => ?_
  · exact (counted.trans (judgeConflict_registersHeld ..)).trans (enterBuffer_registersHeld ..)
  · exact counted.trans (readFrame_registersHeld ..)
  · exact counted.trans (enterBuffer_registersHeld ..)

theorem runPeriod_registersHeld (tdm : Vector Sample 32) (s : State) : RegistersHeld s (runPeriod tdm s) := by
  have delivered : RegistersHeld s
      { s with mix := mixAfter (mixPeriods tdm s) s.mix, router := routerAfter tdm (mixPeriods tdm s) s } := .of_eq rfl rfl rfl
  have ticked : ∀ s, RegistersHeld s (tick s) := fun s =>
    ⟨fun _ => id, fun sound => sound.of_keys rfl, fun sound => sound.of_roles rfl fun _ => rfl⟩
  exact ((delivered.trans (reportAllClipped_only ..).registersHeld).trans (lampFrame_registersHeld _)).trans (ticked _)

theorem repeaterPeriod_registersHeld (s : State) : RegistersHeld s (repeaterPeriod s) :=
  ⟨fun _ => id, id, fun sound => sound.of_roles rfl fun _ => rfl⟩

/-! ### Every command -/

theorem act_registersHeld {f : State → State} {s t : State} (h : act f s = .next t) (hf : RegistersHeld s (f s)) :
    RegistersHeld s t := by
  cases h
  exact .ite (fun _ => hf) fun _ => .refl s

theorem fromCell_registersHeld {src : Byte} {f : State → State} {s t : State} (h : act (fromCell src f) s = .next t)
    (hf : RegistersHeld s (f s)) : RegistersHeld s t :=
  act_registersHeld h (.ite (fun _ => .refl s) fun _ => .ite (fun _ => hf) fun _ => (modCells_only ..).registersHeld)

theorem exec_registersHeld (c : Instr) (s t : State) (h : exec c s = .next t) : RegistersHeld s t := by
  cases c with
  | pinReset a hd =>
    cases h
    exact .of_reset rfl rfl rfl
  | frameArrival p f =>
    cases h
    exact .ite (fun _ => arrive_registersHeld ..) fun _ => (modTrunk_only ..).registersHeld
  | missingFrame p => exact act_registersHeld h (.ite (fun _ => lockMoved_registersHeld ..) fun _ => .refl s)
  | outputFrameSend p =>
    exact act_registersHeld h
      (.ite (fun _ => .refl s) fun _ => (buildFrame_only p s).registersHeld.trans (modTrunk_only ..).registersHeld)
  | samplePeriod tdm =>
    cases h
    exact .ite (fun _ => runPeriod_registersHeld ..) fun _ => repeaterPeriod_registersHeld s
  | referencePulse => exact act_registersHeld h (takePulse_registersHeld s)
  | referenceLost => exact act_registersHeld h (loseReference_registersHeld s)
  | scheduledSwitchPoint => exact act_registersHeld h (scheduledPoint_registersHeld s)
  | headFreeRun => exact act_registersHeld h (.ite (fun _ => makeHead_registersHeld ..) fun _ => .refl s)
  | epochHoldOffEnd => exact act_registersHeld h (.ite (fun _ => (modSp_only ..).registersHeld) fun _ => .refl s)
  | localSwitchPoint => exact act_registersHeld h (localPoint_registersHeld s)
  | originResend i => exact act_registersHeld h (.ite (fun _ => resendOrigin_registersHeld ..) fun _ => .refl s)
  | leaseExpiry l n i => exact act_registersHeld h (.ite (fun _ => expireTalker_registersHeld ..) fun _ => .refl s)
  | callExpiry t c =>
    exact act_registersHeld h
      (.ite (fun _ => (dropCall_registersHeld ..).trans (resolveFor_registersHeld ..)) fun _ => .refl s)
  | keyWindowEnd m k => exact act_registersHeld h (modKey_only ..).registersHeld
  | routeCountdownEnd m k => exact act_registersHeld h (modKey_only ..).registersHeld
  | loadAbandoned => exact act_registersHeld h (abandonIfDue_only s).registersHeld
  | lampPeriodStart => exact act_registersHeld h (lampPeriodStart_registersHeld s)
  | faultSense reads => exact act_registersHeld h (takeFaultReads_registersHeld ..)
  | gpiSample closed => exact act_registersHeld h (takeGpiSample_registersHeld ..)
  | scan i bytes => exact act_registersHeld h (takeScan_registersHeld ..)
  | autoHoldReached m k => exact act_registersHeld h (modKey_only ..).registersHeld
  | panelTimeout i => exact act_registersHeld h (.ite (fun _ => loseLine_registersHeld ..) fun _ => .refl s)
  | talkOn src tag m => exact fromCell_registersHeld h (takeTalkOn_registersHeld ..)
  | talkOff src tag m => exact fromCell_registersHeld h (takeTalkOff_registersHeld ..)
  | talkReply src tag m => exact fromCell_registersHeld h (takeTalkReply_registersHeld ..)
  | confOn src tag m => exact fromCell_registersHeld h (takeConfOn_registersHeld ..)
  | confOff src tag m => exact fromCell_registersHeld h (takeConfOff_registersHeld ..)
  | call src tag m => exact fromCell_registersHeld h (takeCall_registersHeld ..)
  | callCancel src tag m => exact fromCell_registersHeld h (takeCancel_registersHeld ..)
  | tallySet src tag m => exact fromCell_registersHeld h (takeTallySet_registersHeld ..)
  | reply src tag m => exact fromCell_registersHeld h (takeReply_only ..).registersHeld
  | _ => exact fromCell_registersHeld h (takeRequestCell_registersHeld ..)

/-- A step runs a command on the node with the rest of its queue, or idles. -/
theorem step_registersHeld {s t : State} (h : step s = .next t) : RegistersHeld s t := by
  unfold step at h
  split at h
  · cases h
    exact .refl s
  · next rest _ =>
    have taken : RegistersHeld s { s with pending := rest } := .of_eq rfl rfl rfl
    exact taken.trans (exec_registersHeld _ _ _ h)

/-- Settles O10: no command takes a talker list, the call register or the substitution links out of their laws
(`step_registersHeld`); what a list or a register takes in is new to it and finds room (`admitted_sound`, `mirrorOn_sound`,
`CallsSound.append`, `LinksSound.set`). -/
theorem registersKept : Obligations.RegistersKept :=
  ⟨fun _ _ sound h l => (step_registersHeld h).lists l (sound l), fun _ _ sound h => (step_registersHeld h).calls sound,
    fun _ _ sound h => (step_registersHeld h).links sound⟩

end Sys2Proof.Machine
end

section
/-! SUPPORT. Talk cells at an authority, at a talker and at a mirror (O33, O34, O35). -/

namespace Sys2Proof.Machine

open Sys2Proof

-- One theorem after another: all files together, as one text, elaborate on more threads than the memory limit lets run.
set_option Elab.async false

/-! ### Fields that are read (R91, R97, R209) -/

theorem readTalkTarget_none {kind : Byte} {id : Half}
    (h : 2 ≤ kind.toNat ∨ (kind = 0 ∧ 1024 ≤ id.toNat) ∨ (kind = 1 ∧ 64 ≤ id.toNat)) : readTalkTarget kind id = none := by
  rcases h with far | ⟨rfl, far⟩ | ⟨rfl, far⟩
  · have not0 : kind ≠ 0 := fun h => by subst h; exact absurd far (by decide)
    have not1 : kind ≠ 1 := fun h => by subst h; exact absurd far (by decide)
    rw [readTalkTarget, if_neg not0, if_neg not1]
  · rw [readTalkTarget, if_pos rfl, asFin_none far]
    rfl
  · rw [readTalkTarget, if_neg (by decide), if_pos rfl, asFin_none far]
    rfl

theorem asFin_eq {n k : Nat} {i : Fin n} (h : k = i.val) : asFin n k = some i := h ▸ asFin_val i

theorem readOutcome_none {b : Byte} (h : 3 ≤ b.toNat) : readOutcome b = none := by
  have other : ∀ n : Byte, n.toNat < 3 → b ≠ n := fun n small same => by subst same; omega
  rw [readOutcome, if_neg (other 0 (by decide)), if_neg (other 1 (by decide)), if_neg (other 2 (by decide))]

/-- R91: a TALK_ON with a field out of range. -/
theorem judgeTalkOn_none {src : Byte} {lease : Nat} {m : TalkOnMsg} (h : readTalkTarget m.kind m.id = none ∨
    64 ≤ m.origin.toNat ∨ 128 ≤ m.slot.toNat ∨ 4 ≤ m.prio.toNat ∨ readPointOpt m.point = none) :
    judgeTalkOn src lease m = none := by
  unfold judgeTalkOn
  rcases h with bad | bad | bad | bad | bad
  · simp [bad]
  · simp [asFin_none bad]
  · simp [asFin_none bad]
  · simp [asFin_none bad]
  · simp [bad]

theorem judgeTalkOn_read {src : Byte} {lease : Nat} {m : TalkOnMsg} {target : TalkTarget} {idx : OriginId}
    {point : Option PointId} {slot : SlotId} {prio : Prio} (htarget : readTalkTarget m.kind m.id = some target)
    (hidx : m.origin.toNat = idx.val) (hpoint : readPointOpt m.point = some point) (hslot : m.slot.toNat = slot.val)
    (hprio : m.prio.toNat = prio.val) : judgeTalkOn src lease m =
      some (target, { node := src, origin := idx, point := point, slot := slot, prio := prio, lease := lease }) := by
  simp [judgeTalkOn, htarget, asFin_eq hidx, hpoint, asFin_eq hslot, asFin_eq hprio]

/-- R97: a CONF_ON with a field out of range. -/
theorem judgeConfOn_none {m : ConfOnMsg} (h : 64 ≤ m.conf.toNat ∨ ¬(1 ≤ m.node.toNat ∧ m.node.toNat ≤ 62) ∨
    64 ≤ m.origin.toNat ∨ 128 ≤ m.slot.toNat ∨ 4 ≤ m.prio.toNat ∨ m.lease = 0 ∨
      (1024 ≤ m.point.toNat ∧ m.point ≠ 0xFFFF)) : judgeConfOn m = none := by
  unfold judgeConfOn
  rcases h with bad | bad | bad | bad | bad | bad | bad
  · simp [asFin_none bad]
  · simp [Bool.eq_false_iff.2 ((sourceOk_iff m.node).not.2 bad)]
  · simp [asFin_none bad]
  · simp [asFin_none bad]
  · simp [asFin_none bad]
  · simp [bad]
  · simp [readPointOpt_none bad]

theorem judgeConfOn_read {m : ConfOnMsg} {c : ConfId} {T : Talker} (hconf : m.conf.toNat = c.val) (low : 1 ≤ m.node.toNat)
    (high : m.node.toNat ≤ 62) (hlease : m.lease ≠ 0) (node : T.node = m.node) (origin : T.origin.val = m.origin.toNat)
    (slot : T.slot.val = m.slot.toNat) (prio : T.prio.val = m.prio.toNat) (point : readPointOpt m.point = some T.point)
    (lease : T.lease = m.lease.toNat) : judgeConfOn m = some (c, T) := by
  obtain ⟨n, o, p, sl, pr, le⟩ := T
  cases node
  cases lease
  simp only at origin slot prio point
  simp [judgeConfOn, asFin_eq hconf, asFin_eq origin.symm, asFin_eq slot.symm, asFin_eq prio.symm, point,
    (sourceOk_iff m.node).2 ⟨low, high⟩]
  exact hlease

/-! ### The authority of a target (R80, R81) -/

/-- The lowest index at which a test holds is found. -/
theorem firstFin_lowest {n : Nat} {p : Fin n → Bool} {i : Fin n} (here : p i = true) (lowest : ∀ j, p j = true → i ≤ j) :
    firstFin p = some i := by
  cases found : firstFin p with
  | none => exact absurd here (Bool.eq_false_iff.1 (firstFin_none.1 found i))
  | some k =>
    obtain ⟨hit, first⟩ := firstFin_spec found
    have below : ¬i < k := fun lower => absurd here (Bool.eq_false_iff.1 (first i lower))
    rw [le_antisymm (not_lt.1 below) (lowest k hit)]

section
variable {s : State} {p : PointId}

theorem pointOutput_lowest {m : MixId} (carries : (s.mix.recs[m]'m.isLt).point = some p)
    (lowest : ∀ j : MixId, (s.mix.recs[j]'j.isLt).point = some p → m ≤ j) : pointOutput s.mix p = some m :=
  firstFin_lowest (beq_iff_eq.2 carries) fun j hit => lowest j (beq_iff_eq.1 hit)

theorem pointOutput_none (h : ∀ m : MixId, (s.mix.recs[m]'m.isLt).point ≠ some p) : pointOutput s.mix p = none :=
  firstFin_none.2 fun m => beq_eq_false_iff_ne.2 (h m)

end

/-! ### A list meets a talker (R92, R97) -/

/-- R90: a talker of a sound list leaves it. -/
theorem dropTalker_split {pre post : List Talker} {v : Talker} (h : ListSound (pre ++ v :: post)) :
    dropTalker v.node v.origin (pre ++ v :: post) = pre ++ post := by
  have distinct := List.pairwise_append.1 h.2
  obtain ⟨_, later, before⟩ := distinct
  have stays : ∀ {x : Talker}, ¬(x.node = v.node ∧ x.origin = v.origin) → (!isTalker v.node v.origin x) = true :=
      fun other => by
    rw [Bool.not_eq_true', Bool.eq_false_iff, ne_eq, isTalker_iff]
    exact other
  have goes : ¬(!isTalker v.node v.origin v) = true := by simp [isTalker]
  rw [dropTalker, List.filter_append, List.filter_cons_of_neg (p := fun t => !isTalker v.node v.origin t) goes,
    List.filter_eq_self.2 fun x hx => stays (before x hx v List.mem_cons_self),
    List.filter_eq_self.2 fun x hx => stays fun same =>
      (List.pairwise_cons.1 later).1 x hx ⟨same.1.symm, same.2.symm⟩]

theorem renewIn_eq (t : Talker) (l : List Talker) :
    renewIn t l = l.map fun x => if x.node = t.node ∧ x.origin = t.origin then t else x := by
  simp only [renewIn, isTalker_iff]

/-- R92: the newest of the lowest priority gives way. -/
theorem victimOf_split {pre post : List Talker} {v : Talker} (before : ∀ x ∈ pre, v.prio ≤ x.prio)
    (after : ∀ x ∈ post, v.prio < x.prio) : victimOf (pre ++ v :: post) = some v :=
  (victimOf_eq_picked _).trans (foldl_picked_some _ before fun x hx => not_le.2 (after x hx))

/-- R97: the oldest of the smallest lease gives way. -/
theorem staleOf_split {pre post : List Talker} {v : Talker} (before : ∀ x ∈ pre, v.lease < x.lease)
    (after : ∀ x ∈ post, v.lease ≤ x.lease) : staleOf (pre ++ v :: post) = some v :=
  (staleOf_eq_picked _).trans (foldl_picked_some _ before fun x hx => not_lt.2 (after x hx))

section
variable {t : Talker} {l : List Talker}

theorem mirrorOn_present (h : ∃ x ∈ l, x.node = t.node ∧ x.origin = t.origin) : mirrorOn t l = renewIn t l :=
  if_pos (isTalker_any_iff.2 h)

theorem mirrorOn_room (new : ∀ x ∈ l, ¬(x.node = t.node ∧ x.origin = t.origin)) (room : l.length < 8) :
    mirrorOn t l = l ++ [t] := by
  rw [mirrorOn, if_neg (isTalker_any_iff.not.2 fun ⟨x, hx, same⟩ => new x hx same), if_pos room]

theorem mirrorOn_full {v : Talker} (new : ∀ x ∈ l, ¬(x.node = t.node ∧ x.origin = t.origin)) (full : 8 ≤ l.length)
    (hv : staleOf l = some v) : mirrorOn t l = dropTalker v.node v.origin l ++ [t] := by
  rw [mirrorOn, if_neg (isTalker_any_iff.not.2 fun ⟨x, hx, same⟩ => new x hx same), if_neg (Nat.not_lt.2 full), hv]

end

/-! ### Outcomes (R86, R89, R92) -/

/-- R89, R92: whom an outcome is told, and how, where the node's address is that of `s`. -/
theorem answerTalk_addr {s u : State} (addr : u.trunk.addr = s.trunk.addr) (n : Byte) (i : OriginId) (target : TalkTarget)
    (o : TalkOutcome) (tag : Option Byte) : answerTalk n i target o tag u =
      if n = s.trunk.addr then outcomeAt target i o u
      else sendCell .talkReply n tag (talkTargetBytes target ++ [b8 i.val, outcomeByte o]) u := by
  rw [answerTalk, addr]

theorem stillAsks_iff {x : OriginState} : stillAsks x = true ↔ x = .requested ∨ x = .granted ∨ x = .noAnswer := by
  cases x <;> simp [stillAsks]

section
variable {s : State} {i : OriginId} {e : OriginEntry}

theorem modOrigin_held (held : s.talk.origins[i]'i.isLt = some e) (f : OriginEntry → OriginEntry) : modOrigin i f s =
    { s with talk := { s.talk with origins := s.talk.origins.set i (some (f e)) i.isLt } } := by
  have entry : vmod s.talk.origins i (Option.map f) = s.talk.origins.set i (some (f e)) i.isLt := by
    show s.talk.origins.set i (Option.map f (s.talk.origins[i]'i.isLt)) i.isLt = _
    rw [held]
    rfl
  exact congrArg (fun x => { s with talk := { s.talk with origins := x } }) entry

/-- R86: an entry of the target that still asks takes the outcome. -/
theorem outcomeAt_wanted (held : s.talk.origins[i]'i.isLt = some e)
    (asks : e.state = .requested ∨ e.state = .granted ∨ e.state = .noAnswer)
    (o : TalkOutcome) : outcomeAt e.target i o s =
      { s with talk := { s.talk with origins := s.talk.origins.set i (some (takeOutcome o e)) i.isLt } } := by
  have wanted : (decide (e.target = e.target) && stillAsks e.state) = true := by simp [stillAsks_iff.2 asks]
  unfold outcomeAt
  dsimp only
  split
  · next x same =>
    cases held.symm.trans same
    rw [if_pos wanted, modOrigin_held held]
  · next none => cases held.symm.trans none

/-- R86: no live talk wants the outcome. -/
theorem outcomeAt_unwanted {target : TalkTarget}
    (unwanted : ∀ e, s.talk.origins[i]'i.isLt = some e → e.target = target → stillAsks e.state = false) (o : TalkOutcome) :
    outcomeAt target i o s = if o = .granted then sendTalkOff target i s else s := by
  unfold outcomeAt
  dsimp only
  split
  · next e held =>
    refine if_neg fun wanted => ?_
    rw [Bool.and_eq_true, decide_eq_true_eq] at wanted
    exact absurd wanted.2 (Bool.eq_false_iff.1 (unwanted e held wanted.1))
  · rfl

end

/-! ### TALK_ON at the authority (R91 to R93) -/

section
variable {s : State} {l : ListId} {T : Talker} (target : TalkTarget) (tag : Option Byte)

/-- R92, R93: present. -/
theorem admitTo_present (h : ∃ x ∈ listOf s.talk l, x.node = T.node ∧ x.origin = T.origin) : admitTo l target T tag s =
    answerTalk T.node T.origin target .granted tag
      (announceListOn l T (modList l (fun _ => renewIn T (listOf s.talk l)) s)) := by
  simp only [admitTo, admitTalker_present h]

/-- R92, R93: room. -/
theorem admitTo_room (new : ∀ x ∈ listOf s.talk l, ¬(x.node = T.node ∧ x.origin = T.origin))
    (room : (listOf s.talk l).length < 8) : admitTo l target T tag s =
      answerTalk T.node T.origin target .granted tag
        (announceListOn l T (modList l (fun _ => listOf s.talk l ++ [T]) s)) := by
  simp only [admitTo, admitTalker_room new room]

/-- R92, R93: full, and someone gives way. -/
theorem admitTo_displaced {v : Talker} (new : ∀ x ∈ listOf s.talk l, ¬(x.node = T.node ∧ x.origin = T.origin))
    (full : 8 ≤ (listOf s.talk l).length) (hv : victimOf (listOf s.talk l) = some v) (higher : v.prio < T.prio) :
    admitTo l target T tag s = answerTalk T.node T.origin target .granted tag
      (answerTalk v.node v.origin target .displaced tag (announceListOn l T (announceListOff l v.node v.origin
        (modList l (fun _ => dropTalker v.node v.origin (listOf s.talk l) ++ [T]) s)))) := by
  simp only [admitTo, admitTalker_full new full hv, if_pos higher]

/-- R92: full, and nobody gives way. -/
theorem admitTo_denied {v : Talker} (new : ∀ x ∈ listOf s.talk l, ¬(x.node = T.node ∧ x.origin = T.origin))
    (full : 8 ≤ (listOf s.talk l).length) (hv : victimOf (listOf s.talk l) = some v) (lower : T.prio ≤ v.prio) :
    admitTo l target T tag s = answerTalk T.node T.origin target .denied tag s := by
  simp only [admitTo, admitTalker_full new full hv, if_neg (not_lt.2 lower)]

/-- R92: the node of a list that changed and was announced has the address it had. -/
theorem announcedOn_addr (f : List Talker → List Talker) : (announceListOn l T (modList l f s)).trunk.addr = s.trunk.addr := by
  have only : Only talkBlocks s (announceListOn l T (modList l f s)) :=
    ((modList_only ..).mono (by decide)).trans (cell_talk (announceListOn_only ..))
  rw [only.keep .trunk (by decide)]

theorem displaced_addr (f : List Talker → List Talker) (v : Talker) :
    (announceListOn l T (announceListOff l v.node v.origin (modList l f s))).trunk.addr = s.trunk.addr ∧
    (answerTalk v.node v.origin target .displaced tag
      (announceListOn l T (announceListOff l v.node v.origin (modList l f s)))).trunk.addr = s.trunk.addr := by
  have only : Only talkBlocks s (announceListOn l T (announceListOff l v.node v.origin (modList l f s))) :=
    (((modList_only ..).mono (by decide)).trans (cell_talk (announceListOff_only ..))).trans
      (cell_talk (announceListOn_only ..))
  constructor
  · rw [only.keep .trunk (by decide)]
  · rw [(only.trans (answerTalk_only ..)).keep .trunk (by decide)]

end

theorem exec_talkOn {s : State} {src : Byte} (h : Reaches s src) (tag : Byte) (m : TalkOnMsg) :
    exec (.talkOn src tag m) s = .next (takeTalkOn src tag m s) := act_fromCell h _

/-- Settles O33, by the cases of the authority, of the fields and of admission. -/
theorem talkOnTaken : Obligations.TalkOnTaken := by
  refine ⟨fun s p => ⟨fun m carries lowest => ?_, fun none => ?_⟩, fun s c => rfl, fun s src tag m reach => ⟨fun bad => ?_,
    fun target idx point slot prio htarget hidx hpoint hslot hprio => ?_⟩,
    fun s l target T tag sound => ⟨?_, fun new => ⟨?_, ?_⟩⟩⟩
  · exact congrArg (Option.map ListId.direct) (pointOutput_lowest carries lowest)
  · exact congrArg (Option.map ListId.direct) (pointOutput_none none)
  · have unread : judgeTalkOn src s.mgmt.params.lease m = none := by
      refine judgeTalkOn_none ?_
      rcases bad with kind | kind | kind | origin | slot | prio | point
      · exact .inl (readTalkTarget_none (.inl kind))
      · exact .inl (readTalkTarget_none (.inr (.inl kind)))
      · exact .inl (readTalkTarget_none (.inr (.inr kind)))
      · exact .inr (.inl origin)
      · exact .inr (.inr (.inl slot))
      · exact .inr (.inr (.inr (.inl prio)))
      · exact .inr (.inr (.inr (.inr (readPointOpt_none point))))
    rw [exec_talkOn reach, takeTalkOn, unread]
  · have taken := exec_talkOn reach tag m
    simp only [takeTalkOn, judgeTalkOn_read htarget hidx hpoint hslot hprio, handleTalkOn] at taken
    refine ⟨fun none => ?_, fun l held => ?_⟩
    · rw [taken, none]
    · rw [taken, held]
  · intro present
    rw [admitTo_present target tag present, answerTalk_addr (announcedOn_addr _), renewIn_eq]
    cases l <;> rfl
  · intro room
    rw [admitTo_room target tag new room, answerTalk_addr (announcedOn_addr _)]
    cases l <;> rfl
  · intro pre v post split full before after
    have victim : victimOf (listOf s.talk l) = some v := split ▸ victimOf_split before after
    refine ⟨fun lower => ?_, fun higher => ?_⟩
    · rw [admitTo_denied target tag new full.ge victim lower, answerTalk_addr rfl]
      rfl
    · have gone : dropTalker v.node v.origin (listOf s.talk l) = pre ++ post := by
        rw [split] at sound ⊢
        exact dropTalker_split sound
      rw [admitTo_displaced target tag new full.ge victim higher, answerTalk_addr (displaced_addr target tag _ v).2,
        answerTalk_addr (displaced_addr target tag _ v).1, gone]
      cases l <;> rfl

/-! ### TALK_OFF and TALK_REPLY (R86, R94) -/

section
variable {s : State} {src tag : Byte} {target : TalkTarget} {idx : OriginId}

theorem exec_talkOff (h : Reaches s src) (m : TalkOffMsg) : exec (.talkOff src tag m) s = .next (takeTalkOff src m s) :=
  act_fromCell h _

theorem exec_talkReply (h : Reaches s src) (m : TalkReplyMsg) : exec (.talkReply src tag m) s = .next (takeTalkReply m s) :=
  act_fromCell h _

theorem takeTalkOff_read {m : TalkOffMsg} (htarget : readTalkTarget m.kind m.id = some target)
    (hidx : m.origin.toNat = idx.val) : takeTalkOff src m s = handleTalkOff target src idx s := by
  simp only [takeTalkOff, htarget, asFin_eq hidx]

theorem takeTalkReply_read {m : TalkReplyMsg} {o : TalkOutcome} (htarget : readTalkTarget m.kind m.id = some target)
    (hidx : m.origin.toNat = idx.val) (ho : readOutcome m.outcome = some o) : takeTalkReply m s = outcomeAt target idx o s := by
  simp only [takeTalkReply, htarget, asFin_eq hidx, ho]

theorem takeTalkOff_ignored {m : TalkOffMsg} (h : readTalkTarget m.kind m.id = none ∨ 64 ≤ m.origin.toNat) :
    takeTalkOff src m s = s := by
  unfold takeTalkOff
  rcases h with h | h
  · rw [h]
  · rw [asFin_none h]
    split
    · next none => cases none
    · rfl

theorem takeTalkReply_ignored {m : TalkReplyMsg}
    (h : readTalkTarget m.kind m.id = none ∨ 64 ≤ m.origin.toNat ∨ 3 ≤ m.outcome.toNat) : takeTalkReply m s = s := by
  unfold takeTalkReply
  split
  · next target idx o htarget hidx ho =>
    rcases h with h | h | h
    · cases htarget.symm.trans h
    · cases hidx.symm.trans (asFin_none h)
    · cases ho.symm.trans (readOutcome_none h)
  · rfl

/-- R94: a TALK_OFF at an authority. -/
theorem handleTalkOff_held {l : ListId} (held : authorityList s target = some l) : handleTalkOff target src idx s =
    if (listOf s.talk l).any (isTalker src idx) then announceListOff l src idx (modList l (dropTalker src idx) s) else s := by
  rw [handleTalkOff, held]

end

/-- Settles O34: the fields that are out of range, then the cases of the list and of the entry. -/
theorem talkOffAndReply : Obligations.TalkOffAndReply := by
  refine fun s src tag reach => ⟨fun kind id origin outcome => ⟨fun bad => ?_, fun bad => ?_⟩,
    fun m target idx htarget hidx => ?_, fun m target idx htarget hidx => ?_⟩
  · rw [exec_talkOff reach, takeTalkOff_ignored]
    rcases bad with far | far | far | far
    · exact .inl (readTalkTarget_none (.inl far))
    · exact .inl (readTalkTarget_none (.inr (.inl far)))
    · exact .inl (readTalkTarget_none (.inr (.inr far)))
    · exact .inr far
  · rw [exec_talkReply reach, takeTalkReply_ignored]
    rcases bad with (far | far | far | far) | far
    · exact .inl (readTalkTarget_none (.inl far))
    · exact .inl (readTalkTarget_none (.inr (.inl far)))
    · exact .inl (readTalkTarget_none (.inr (.inr far)))
    · exact .inr (.inl far)
    · exact .inr (.inr far)
  · have taken : exec (.talkOff src tag m) s = .next (handleTalkOff target src idx s) := by
      rw [exec_talkOff reach, takeTalkOff_read htarget hidx]
    rw [taken]
    refine ⟨fun none => ?_, fun l held => ⟨fun absent => ?_, fun present => ?_⟩⟩
    · rw [handleTalkOff, none]
    · rw [handleTalkOff_held held, if_neg]
      exact fun any => let ⟨x, hx, is⟩ := List.any_eq_true.1 any; Bool.eq_false_iff.1 (absent x hx) is
    · have any : (listOf s.talk l).any (isTalker src idx) = true := List.any_eq_true.2 present
      rw [handleTalkOff_held held, if_pos any]
      cases l <;> rfl
  · have taken : ∀ b o, readOutcome b = some o → m.outcome = b →
        exec (.talkReply src tag m) s = .next (outcomeAt target idx o s) := fun b o ho same => by
      rw [exec_talkReply reach, takeTalkReply_read htarget hidx (same ▸ ho)]
    have granted := taken 0 .granted rfl
    have denied := taken 1 .denied rfl
    have displaced := taken 2 .displaced rfl
    have unwanted : (∀ e, s.talk.origins[idx]'idx.isLt = some e → e.target = target → stillAsks e.state = false) →
        (m.outcome = 0 → exec (.talkReply src tag m) s = .next (sendTalkOff target idx s)) ∧
        (m.outcome = 1 ∨ m.outcome = 2 → exec (.talkReply src tag m) s = .next s) := fun none => by
      refine ⟨fun o => ?_, fun o => ?_⟩
      · rw [granted o, outcomeAt_unwanted none, if_pos rfl]
      · rcases o with o | o
        · rw [denied o, outcomeAt_unwanted none, if_neg nofun]
        · rw [displaced o, outcomeAt_unwanted none, if_neg nofun]
    refine ⟨fun far => ?_, granted, denied, displaced, fun e held same => ?_, fun other => ?_⟩
    · rw [exec_talkReply reach, takeTalkReply_ignored (.inr (.inr far))]
    · subst same
      refine ⟨fun asks => ⟨fun o => ?_, fun o => ?_, fun o => ?_⟩, fun settled => unwanted fun x hx _ => ?_⟩
      · rw [granted o, outcomeAt_wanted held asks]
        rfl
      · rw [denied o, outcomeAt_wanted held asks]
        rfl
      · rw [displaced o, outcomeAt_wanted held asks]
        rfl
      · cases held.symm.trans hx
        rcases settled with settled | settled <;> rw [settled] <;> rfl
    · exact unwanted fun e held same => absurd same (other e held)

/-! ### CONF_ON and CONF_OFF at a mirror (R97, R98) -/

section
variable {s : State} {src tag : Byte} {c : ConfId}

theorem exec_confOn (h : Reaches s src) (m : ConfOnMsg) : exec (.confOn src tag m) s = .next (takeConfOn m s) :=
  act_fromCell h _

theorem exec_confOff (h : Reaches s src) (m : ConfOffMsg) : exec (.confOff src tag m) s = .next (takeConfOff m s) :=
  act_fromCell h _

theorem takeConfOn_read {m : ConfOnMsg} {T : Talker} (read : judgeConfOn m = some (c, T)) :
    takeConfOn m s = if (s.talk.confs[c]'c.isLt).home then s else modList (.conf c) (mirrorOn T) s := by
  simp only [takeConfOn, read]

theorem takeConfOff_read {m : ConfOffMsg} {idx : OriginId} (hconf : m.conf.toNat = c.val) (hidx : m.origin.toNat = idx.val) :
    takeConfOff m s =
      if !sourceOk m.node || (s.talk.confs[c]'c.isLt).home then s else modList (.conf c) (dropTalker m.node idx) s := by
  simp only [takeConfOff, asFin_eq hconf, asFin_eq hidx]

theorem takeConfOff_ignored {m : ConfOffMsg}
    (h : 64 ≤ m.conf.toNat ∨ ¬(1 ≤ m.node.toNat ∧ m.node.toNat ≤ 62) ∨ 64 ≤ m.origin.toNat) : takeConfOff m s = s := by
  unfold takeConfOff
  split
  · next c idx hc hidx =>
    rcases h with far | far | far
    · cases hc.symm.trans (asFin_none far)
    · have unsound : sourceOk m.node = false := Bool.eq_false_iff.2 ((sourceOk_iff _).not.2 far)
      rw [unsound]
      rfl
    · cases hidx.symm.trans (asFin_none far)
  · rfl

/-- A list replaced by what `f` makes of it. -/
theorem modList_eq (l : ListId) (f : List Talker → List Talker) (s : State) :
    modList l f s = modList l (fun _ => f (listOf s.talk l)) s := by
  cases l <;> rfl

end

/-- Settles O35: the fields that are out of range, a home, and the cases of a mirror's list. -/
theorem mirrorsFollow : Obligations.MirrorsFollow := by
  refine fun s src tag reach => ⟨fun m bad => ?_, fun m c T hconf low high hlease node origin slot prio point lease sound => ?_,
    fun m bad => ?_, fun m c idx hconf hidx low high => ?_⟩
  · rw [exec_confOn reach, takeConfOn, judgeConfOn_none bad]
  · have taken : exec (.confOn src tag m) s =
        .next (if (s.talk.confs[c]'c.isLt).home then s else modList (.conf c) (mirrorOn T) s) := by
      rw [exec_confOn reach, takeConfOn_read (judgeConfOn_read hconf low high hlease node origin slot prio point lease)]
    have mirror : (s.talk.confs[c]'c.isLt).home = false → ∀ x, mirrorOn T (s.talk.confs[c]'c.isLt).list = x →
        exec (.confOn src tag m) s = .next (modList (.conf c) (fun _ => x) s) := fun away x hx => by
      rw [taken, away, if_neg Bool.false_ne_true, ← hx]
      exact congrArg Host.Outcome.next (modList_eq (.conf c) (mirrorOn T) s)
    refine ⟨fun home => ?_, fun away => ⟨fun present => ?_, fun new => ⟨fun room => ?_, ?_⟩⟩⟩
    · rw [taken, if_pos home]
    · exact mirror away _ ((mirrorOn_present present).trans (renewIn_eq ..))
    · exact mirror away _ (mirrorOn_room new room)
    · intro pre v post split full before after
      have stale : staleOf (s.talk.confs[c]'c.isLt).list = some v := split ▸ staleOf_split before after
      have gone : dropTalker v.node v.origin (s.talk.confs[c]'c.isLt).list = pre ++ post := by
        rw [split] at sound ⊢
        exact dropTalker_split sound
      exact mirror away _ (by rw [mirrorOn_full new full.ge stale, gone])
  · rw [exec_confOff reach, takeConfOff_ignored bad]
  · have taken : exec (.confOff src tag m) s =
        .next (if (s.talk.confs[c]'c.isLt).home then s else modList (.conf c) (dropTalker m.node idx) s) := by
      rw [exec_confOff reach, takeConfOff_read hconf hidx, (sourceOk_iff m.node).2 ⟨low, high⟩]
      rfl
    refine ⟨fun home => ?_, fun away => ?_⟩
    · rw [taken, if_pos home]
    · rw [taken, away]
      rfl

end Sys2Proof.Machine
end

section
/-! SUPPORT. What stands against a SET, and the NODE parameters (O54). -/

namespace Sys2Proof.Machine

open Sys2Proof

-- One theorem after another: all files together, as one text, elaborate on more threads than the memory limit lets run.
set_option Elab.async false

/-! ### What stands against a write (R195, R200) -/

section
variable {s : State} {src tag : Byte} {t : Table} {i : Half} {e : List Byte}

theorem showLocked_iff : showLocked s t = true ↔ s.mgmt.showLock = true ∧ t ≠ .sched := by
  rw [showLocked, Bool.and_eq_true, bne_iff_ne]

theorem loadedByOther_iff {l : Load} :
    loadedByOther l t src = true ↔ ∃ r, l = .opened r ∧ r.table = t ∧ r.requester ≠ src := by
  cases l with
  | closed m => simp [loadedByOther]
  | opened r => simp [loadedByOther]

theorem writable_of_not (unlocked : ¬(s.mgmt.showLock = true ∧ t ≠ .sched))
    (free : ¬∃ r, s.mgmt.load = .opened r ∧ r.table = t ∧ r.requester ≠ src) : Writable t src s := by
  refine ⟨?_, fun r opened same => by_contra fun other => free ⟨r, opened, same, other⟩⟩
  rw [not_and_or, not_not, Bool.not_eq_true] at unlocked
  exact unlocked

theorem serveSet_locked (h : s.mgmt.showLock = true ∧ t ≠ .sched) :
    serveSet src (tableCode t) i e s = (s, plain .locked) := by
  simp only [serveSet, tableOf_tableCode, showLocked_iff.2 h, if_true]

theorem serveSet_busy (unlocked : ¬(s.mgmt.showLock = true ∧ t ≠ .sched))
    (h : ∃ r, s.mgmt.load = .opened r ∧ r.table = t ∧ r.requester ≠ src) :
    serveSet src (tableCode t) i e s = (s, plain .busy) := by
  simp only [serveSet, tableOf_tableCode, if_neg (showLocked_iff.not.2 unlocked), loadedByOther_iff.2 h, if_true]

/-- R195, R196: a code that is no table's. -/
theorem serveSet_noTable {table : Byte} (h : 12 ≤ table.toNat) :
    serveSet src table i e s = (s, plain (if table.toNat ≤ 16 then .invalid else .unknown)) := by
  have noTable : tableOf table = none := List.getElem?_eq_none h
  have code : notATable table = if table.toNat ≤ 16 then .invalid else .unknown := by
    refine if_congr ?_ rfl rfl
    rw [viewOf, if_neg (Nat.not_lt.2 h), isSome_getElem?]
    show table.toNat - 12 < 5 ↔ _
    omega
  simp only [serveSet, noTable, code]

theorem request_set {table : Byte} {c : Code} (h : Fresh s src tag 1) (served : serveSet src table i e s = (s, plain c)) :
    request src tag (.set table i e) s = .next (replied src tag 1 c [] s) := by
  have answered := request_fresh (r := .set table i e) h rfl
  have given : serve src (.set table i e) s = (s, plain c) := served
  rw [given] at answered
  exact answered

end

/-! ### Entries that are judged before their fields (R192, R195, logs 29 and 48) -/

section
variable {t : Table} {n : Nat} {e : List Byte} {s : State}

theorem writeEntry_short (h : e.length < entrySize t) : writeEntry t n e s = (s, .invalid) := if_pos h

theorem paramOf_none (h : 6 ≤ n) : paramOf n = none := List.getElem?_eq_none h

theorem writeEntry_far (long : entrySize t ≤ e.length) (far : tableSize t ≤ n) : writeEntry t n e s = (s, .range) := by
  unfold writeEntry
  rw [if_neg (Nat.not_lt.2 long)]
  cases t with
  | route => simp only [writeRoute, asFin_none (n := 64) far]
  | mix => simp only [writeMix, asFin_none (n := 24) far]
  | conf => simp only [writeConf, asFin_none (n := 64) far]
  | keymap => simp only [writeKeyMap, asFin_none (n := 8) far]
  | key => simp only [writeKey, asFin_none (n := 256) far]
  | camera => simp only [writeCamera, asFin_none (n := 256) far]
  | tallymap => simp only [writeTallymap, asFin_none (n := 40) far]
  | line => simp only [writeLine, asFin_none (n := 48) far]
  | subst => simp only [writeSubst, asFin_none (n := 40) far]
  | gpi => simp only [writeGpi, asFin_none (n := 16) far]
  | sched =>
    have far : 33 ≤ n := far
    rw [writeSched, if_neg (by omega), asFin_none (by omega)]
  | node => simp only [writeNode, paramOf_none far]

end

/-! ### NODE parameters (R193) -/

section
variable {s : State} {src tag : Byte} {v : Half} {p : Param} {n : Nat}

theorem setParam_served {k : Nat} (h : Fresh s src tag 1) (w : Writable .node src s) (hk : paramOf k = some p) :
    setParam k src tag v s = .next (replied src tag 1 (writeParam p v.toNat s).2 [] (writeParam p v.toNat s).1) := by
  have small : k < 6 := by
    by_contra far
    exact absurd ((paramOf_none (Nat.not_lt.1 far)).symm.trans hk) nofun
  have value : halfAt (halfBytes v) 0 = v := half_halfBytes v
  refine setEntry_written h w ?_
  show writeNode (BitVec.ofNat 16 k).toNat (halfBytes v) s = _
  rw [BitVec.toNat_ofNat, Nat.mod_eq_of_lt (by omega), writeNode, hk, value]

theorem writeParam_refused (h : ¬paramOk p n = true) : writeParam p n s = (s, .invalid) := by
  rw [writeParam, if_pos (by simpa using h)]

theorem paramSet_get (x : Params) (p : Param) : paramSet p (paramGet x p) x = x := by cases p <;> rfl

/-- R193: a value of a parameter that does nothing at once is stored. -/
theorem writeParam_stored (h : paramOk p n = true) (hp : p ≠ .lease) :
    writeParam p n s = ({ s with mgmt := { s.mgmt with params := paramSet p n s.mgmt.params } }, .ok) := by
  rw [writeParam, if_neg (by simpa using h)]
  split
  · next same => rw [← same, paramSet_get]
  · rw [storeParam, if_neg hp]
    rfl

/-- R99, R193: a new lease. -/
theorem writeParam_lease (h : paramOk .lease n = true) (new : n ≠ s.mgmt.params.lease) :
    writeParam .lease n s =
      (applyLease n { s with mgmt := { s.mgmt with params := { s.mgmt.params with lease := n } } }, .ok) := by
  have moved : paramGet s.mgmt.params .lease ≠ n := Ne.symm new
  rw [writeParam, if_neg (by simpa using h), if_neg moved]
  rfl

/-- R99: what a new lease does to a list. -/
theorem applyLease_list (n : Nat) (s : State) (l : ListId) :
    listOf (applyLease n s).talk l = (listOf s.talk l).map fun x => { x with lease := min x.lease n } := by
  cases l with
  | direct m => exact vmap_get ..
  | conf c => exact congrArg ConfEntry.list (vmap_get ..)

end

/-- Settles O54: the tests of a SET in their order, the codes that are no table's, and the six parameters by value. -/
theorem writesJudged : Obligations.WritesJudged := by
  refine ⟨fun s src tag t i e fresh => ?_, fun s src tag i e => ⟨rfl, rfl, rfl, rfl, rfl, rfl, rfl, rfl, rfl, rfl, rfl⟩,
    fun s src tag table i e fresh far => request_set fresh (serveSet_noTable far), fun s src tag v fresh w => ?_⟩
  · refine ⟨fun locked => request_set fresh (serveSet_locked locked),
      fun unlocked busy => request_set fresh (serveSet_busy unlocked busy), fun unlocked free => ?_,
      fun unlocked free short => ?_, fun unlocked free long far => ?_⟩
    · exact setEntry_written fresh (writable_of_not unlocked free) rfl
    · exact setEntry_written fresh (writable_of_not unlocked free) (writeEntry_short short)
    · exact setEntry_written fresh (writable_of_not unlocked free) (writeEntry_far long far)
  · have stored : ∀ k p, paramOf k = some p → p ≠ .lease → setParam k src tag v s =
        if paramOk p v.toNat = true then
          .next (replied src tag 1 .ok [] { s with mgmt := { s.mgmt with params := paramSet p v.toNat s.mgmt.params } })
        else .next (replied src tag 1 .invalid [] s) := fun k p hk hp => by
      rw [setParam_served fresh w hk]
      split
      · next ok => rw [writeParam_stored ok hp]
      · next bad => rw [writeParam_refused bad]
    have leased := setParam_served (k := 1) (v := v) fresh w rfl
    have range : paramOk .lease v.toNat = true ↔ 8 ≤ v.toNat ∧ v.toNat ≤ 255 := by simp [paramOk]
    refine ⟨(stored 0 .ctrl rfl nofun).trans (if_congr (by simp [paramOk]) rfl rfl),
      (stored 2 .interval rfl nofun).trans (if_congr (by simp [paramOk]) rfl rfl),
      (stored 3 .offset rfl nofun).trans (if_congr (by simp [paramOk]) rfl rfl),
      (stored 4 .flash rfl nofun).trans (if_congr (by simp [paramOk, or_assoc]) rfl rfl),
      (stored 5 .hold rfl nofun).trans (if_congr (by simp [paramOk]) rfl rfl),
      fun bad => ?_, fun low high same => ?_, fun low high new => ?_⟩
    · rw [writeParam_refused (range.not.2 bad)] at leased
      exact leased
    · have held : paramGet s.mgmt.params .lease = v.toNat := same.symm
      have kept : writeParam .lease v.toNat s = (s, .ok) := by
        rw [writeParam, if_neg (by simpa using range.2 ⟨low, high⟩), if_pos held]
      rw [kept] at leased
      exact leased
    · rw [writeParam_lease (range.2 ⟨low, high⟩) new] at leased
      refine ⟨_, leased, ?_, rfl, fun o => vmap_get .., fun l => applyLease_list ..,
        fun c => (congrArg ConfEntry.home (vmap_get ..)).trans rfl⟩
      have changed : Only [.mgmt] s { s with mgmt := { s.mgmt with params := { s.mgmt.params with lease := v.toNat } } } :=
        modMgmt_only s fun m => { m with params := { m.params with lease := v.toNat } }
      exact (changed.mono (by decide)).trans ((applyLease_only ..).mono (by decide))

end Sys2Proof.Machine
end

section
/-! SUPPORT. What keys do, and how origin entries begin, are sent and end (O44, O36). -/

namespace Sys2Proof.Machine

open Sys2Proof

-- One theorem after another: all files together, as one text, elaborate on more threads than the memory limit lets run.
set_option Elab.async false

/-! ### Origin entries (R82 to R89) -/

/-- R82: what stands at one origin index. -/
def withOrigin (i : OriginId) (x : Option OriginEntry) (s : State) : State :=
  { s with talk := { s.talk with origins := s.talk.origins.set i x i.isLt } }

section
variable {s : State} {i : OriginId} {e : OriginEntry}

theorem withOrigin_same (x : Option OriginEntry) : (withOrigin i x s).talk.origins[i]'i.isLt = x := by
  show (s.talk.origins.set i x i.isLt)[i]'i.isLt = x
  rw [vset_get, if_pos rfl]

theorem withOrigin_twice (x y : Option OriginEntry) : withOrigin i y (withOrigin i x s) = withOrigin i y s := by
  show { s with talk := { s.talk with origins := (s.talk.origins.set i x i.isLt).set i y i.isLt } } = _
  rw [Vector.set_set]
  rfl

theorem withOrigin_list (x : Option OriginEntry) (l : ListId) : listOf (withOrigin i x s).talk l = listOf s.talk l := by
  cases l <;> rfl

/-- R80, R81: the points of the mix outputs and the home flags make the authority. -/
theorem authorityList_congr {t : State} (mix : t.mix = s.mix)
    (homes : ∀ c : ConfId, (t.talk.confs[c]'c.isLt).home = (s.talk.confs[c]'c.isLt).home)
    (target : TalkTarget) : authorityList t target = authorityList s target := by
  cases target with
  | point p => exact congrArg (fun x => (pointOutput x p).map ListId.direct) mix
  | conf c => simp only [authorityList, homes c]

theorem withOrigin_authority (x : Option OriginEntry) (target : TalkTarget) :
    authorityList (withOrigin i x s) target = authorityList s target := authorityList_congr rfl (fun _ => rfl) target

/-- R82, R84: the entry as it is sent. -/
def sentEntry (s : State) (e : OriginEntry) : OriginEntry := refreshFromMap (s.panel.maps[e.map]'e.map.isLt) e

/-- R84: sent by cell. -/
theorem sendOrigin_cell (held : s.talk.origins[i]'i.isLt = some e) (away : authorityList s e.target = none) : sendOrigin i s =
    sendCell .talkOn 63 none (talkOnBytes i (sentEntry s e)) (withOrigin i (some (sentEntry s e)) s) := by
  unfold sendOrigin
  split
  · next none => cases held.symm.trans none
  · next x same =>
    cases held.symm.trans same
    have away : authorityList (withOrigin i (some (sentEntry s e)) s) e.target = none := (withOrigin_authority ..).trans away
    dsimp only
    rw [modOrigin_held held]
    split
    · next l here => cases away.symm.trans here
    · rfl

/-- R89: the talker that this node's own origin index `i` gives, with key map `m`. -/
def ownTalker (s : State) (m : MapId) (i : OriginId) : Talker :=
  { node := s.trunk.addr, origin := i, point := (s.panel.maps[m]'m.isLt).point, slot := (s.panel.maps[m]'m.isLt).slot,
    prio := (s.panel.maps[m]'m.isLt).prio, lease := s.mgmt.params.lease }

/-- R89: served internally. -/
theorem sendOrigin_internal {l : ListId} (held : s.talk.origins[i]'i.isLt = some e)
    (here : authorityList s e.target = some l) : sendOrigin i s =
      admitTo l e.target (ownTalker s e.map i) none (withOrigin i (some (sentEntry s e)) s) := by
  unfold sendOrigin
  split
  · next none => cases held.symm.trans none
  · next x same =>
    cases held.symm.trans same
    have here : authorityList (withOrigin i (some (sentEntry s e)) s) e.target = some l := (withOrigin_authority ..).trans here
    dsimp only
    rw [modOrigin_held held]
    split
    · next k found =>
      cases here.symm.trans found
      rfl
    · next none => cases here.symm.trans none

theorem endOrigin_none (h : s.talk.origins[i]'i.isLt = none) : endOrigin i s = s := by
  unfold endOrigin
  split
  · rfl
  · next x same => cases h.symm.trans same

/-- R87: an entry whose authority is elsewhere. -/
theorem endOrigin_cell (held : s.talk.origins[i]'i.isLt = some e) (away : authorityList s e.target = none) :
    endOrigin i s = sendTalkOff e.target i (withOrigin i none s) := by
  unfold endOrigin
  split
  · next none => cases held.symm.trans none
  · next x same =>
    cases held.symm.trans same
    have away : authorityList (withOrigin i none s) e.target = none := (withOrigin_authority ..).trans away
    dsimp only
    split
    · next l here => cases away.symm.trans here
    · rfl

/-- R87, R89: an entry whose authority is this node. -/
theorem endOrigin_internal {l : ListId} (held : s.talk.origins[i]'i.isLt = some e) (here : authorityList s e.target = some l) :
    endOrigin i s = if (listOf s.talk l).any (isTalker s.trunk.addr i) then
        announceListOff l s.trunk.addr i (modList l (dropTalker s.trunk.addr i) (withOrigin i none s))
      else withOrigin i none s := by
  unfold endOrigin
  split
  · next none => cases held.symm.trans none
  · next x same =>
    cases held.symm.trans same
    have here : authorityList (withOrigin i none s) e.target = some l := (withOrigin_authority ..).trans here
    dsimp only
    split
    · refine (handleTalkOff_held here).trans ?_
      rw [withOrigin_list]
      rfl
    · next none => cases here.symm.trans none

end

/-! ### The first free index (R82, R83) -/

section
variable {t : TalkAuthority}

theorem freeOrigin_eq (t : TalkAuthority) :
    freeOrigin t = (firstFin fun n : Fin 64 => (t.origins[t.pointer + n]'(t.pointer + n).isLt).isNone).map (t.pointer + ·) :=
  List.find?_map ..

theorem freeOrigin_full (full : ∀ i : OriginId, t.origins[i]'i.isLt ≠ none) : freeOrigin t = none := by
  rw [freeOrigin_eq, Option.map_eq_none_iff, firstFin_none]
  exact fun n => Bool.eq_false_iff.2 fun free => full _ (Option.isNone_iff_eq_none.1 free)

/-- R82: from the pointer on, wrapping from 63 to 0. -/
theorem freeOrigin_first {n : Nat} (hn : n < 64) {i : OriginId} (hi : i.val = (t.pointer.val + n) % 64)
    (free : t.origins[i]'i.isLt = none)
    (first : ∀ j : OriginId, ∀ q < n, j.val = (t.pointer.val + q) % 64 → ¬t.origins[j]'j.isLt = none) :
    freeOrigin t = some i := by
  have at_ : t.pointer + (⟨n, hn⟩ : Fin 64) = i := Fin.ext ((Fin.val_add ..).trans hi.symm)
  have found : (firstFin fun k : Fin 64 => (t.origins[t.pointer + k]'(t.pointer + k).isLt).isNone) = some ⟨n, hn⟩ := by
    refine firstFin_lowest (by simp only [at_, free, Option.isNone_none]) fun k hk => ?_
    by_contra below
    exact first _ k.val (Nat.lt_of_not_le below) (Fin.val_add ..) (Option.isNone_iff_eq_none.1 hk)
  rw [freeOrigin_eq, found]
  exact congrArg some at_

end

section
variable {m : MapId} {k : KeyId} {sub : Option (Fin 4)} {target : TalkTarget} {s : State} {i : OriginId}

/-- R83: the entry that a key creates. -/
def newEntry (m : MapId) (k : KeyId) (sub : Option (Fin 4)) (target : TalkTarget) (s : State) : OriginEntry :=
  { map := m, key := k, sub := sub, target := target, point := (s.panel.maps[m]'m.isLt).point
    slot := (s.panel.maps[m]'m.isLt).slot, prio := (s.panel.maps[m]'m.isLt).prio, state := .requested
    countdown := refreshInterval s.mgmt.params.lease, unanswered := 0 }

/-- R82: the pointer moves behind an index that was taken. -/
def pointerAfter (i : OriginId) (s : State) : State := { s with talk := { s.talk with pointer := i + 1 } }

theorem createOrigin_found (found : freeOrigin s.talk = some i) : createOrigin m k sub target s =
    (sendOrigin i (withOrigin i (some (newEntry m k sub target s)) (pointerAfter i s)), true) := by
  unfold createOrigin
  rw [found]
  rfl

/-- R83, R84: the new entry is sent by cell. -/
theorem createOrigin_cell (found : freeOrigin s.talk = some i) (away : authorityList s target = none) :
    createOrigin m k sub target s = (sendCell .talkOn 63 none (talkOnBytes i (newEntry m k sub target s))
      (withOrigin i (some (newEntry m k sub target s)) (pointerAfter i s)), true) := by
  have away : authorityList (withOrigin i (some (newEntry m k sub target s)) (pointerAfter i s)) target = none :=
    (authorityList_congr rfl (fun _ => rfl) target).trans away
  rw [createOrigin_found found, sendOrigin_cell (withOrigin_same _) away, withOrigin_twice]
  rfl

/-- R83, R89: the new entry is served internally. -/
theorem createOrigin_internal {l : ListId} (found : freeOrigin s.talk = some i) (here : authorityList s target = some l) :
    createOrigin m k sub target s = (admitTo l target (ownTalker s m i) none
      (withOrigin i (some (newEntry m k sub target s)) (pointerAfter i s)), true) := by
  have here : authorityList (withOrigin i (some (newEntry m k sub target s)) (pointerAfter i s)) target = some l :=
    (authorityList_congr rfl (fun _ => rfl) target).trans here
  rw [createOrigin_found found, sendOrigin_internal (withOrigin_same _) here, withOrigin_twice]
  rfl

end

/-! ### The entries of a key (R83, R87) -/

section
variable {s : State} {m : MapId} {k : KeyId} {sub : Option (Fin 4)}

/-- What `findOrigin` looks for. -/
theorem findOrigin_test (t : TalkAuthority) (i : OriginId) :
    (match t.origins[i]'i.isLt with
      | some e => e.map == m && e.key == k && e.sub == sub
      | none => false) = true ↔ ∃ e, t.origins[i]'i.isLt = some e ∧ e.map = m ∧ e.key = k ∧ e.sub = sub := by
  cases t.origins[i]'i.isLt with
  | none => simp
  | some e => simp [and_assoc]

theorem findOrigin_none
    (h : ∀ i : OriginId, ¬∃ e, s.talk.origins[i]'i.isLt = some e ∧ e.map = m ∧ e.key = k ∧ e.sub = sub) :
    findOrigin s.talk m k sub = none :=
  firstFin_none.2 fun i => Bool.eq_false_iff.2 ((findOrigin_test ..).not.2 (h i))

theorem findOrigin_first {i : OriginId} (here : ∃ e, s.talk.origins[i]'i.isLt = some e ∧ e.map = m ∧ e.key = k ∧ e.sub = sub)
    (lowest : ∀ j : OriginId, (∃ e, s.talk.origins[j]'j.isLt = some e ∧ e.map = m ∧ e.key = k ∧ e.sub = sub) → i ≤ j) :
    findOrigin s.talk m k sub = some i :=
  firstFin_lowest ((findOrigin_test ..).2 here) fun j hj => lowest j ((findOrigin_test ..).1 hj)

end

/-! ### Keys (R133 to R139) -/

section
variable {m : MapId} {k : KeyId} {s : State}

theorem modKey_modKey (f g : KeyState → KeyState) (s : State) : modKey m k f (modKey m k g s) = modKey m k (f ∘ g) s := by
  have keys : vmod (vmod s.panel.keys (keyIx m k) g) (keyIx m k) f = vmod s.panel.keys (keyIx m k) (f ∘ g) := by
    show (vmod s.panel.keys (keyIx m k) g).set (keyIx m k) (f ((vmod s.panel.keys (keyIx m k) g)[keyIx m k]'(keyIx m k).isLt))
      (keyIx m k).isLt = _
    rw [vmod_same]
    exact Vector.set_set ..
  exact congrArg (fun x => { s with panel := { s.panel with keys := x } }) keys

theorem setActive_already {b : Bool} (h : (keyState s m k).active = b) : setActive m k b s = s := if_pos h

theorem setActive_starts (h : (keyState s m k).active = false) :
    setActive m k true s = activateFn m k (modKey m k (fun y => { y with active := true }) s) := by
  rw [setActive, h, if_neg Bool.false_ne_true, if_pos rfl]

theorem setActive_ends (h : (keyState s m k).active = true) :
    setActive m k false s = deactivateFn m k (modKey m k (fun y => { y with active := false }) s) := by
  rw [setActive, h, if_neg (Ne.symm Bool.false_ne_true), if_neg Bool.false_ne_true]

/-! The three outcomes of a subscription asked for or given up (R107). -/

section
variable {x : MixId} {c : ConfId}

theorem toggleSub_removed (h : c ∈ (s.mix.recs[x]'x.isLt).subs) :
    toggleSub x c s = (modRec x (fun r => { r with subs := r.subs.erase c }) s, some .removed) := if_pos h

theorem toggleSub_added (h : c ∉ (s.mix.recs[x]'x.isLt).subs) (room : (s.mix.recs[x]'x.isLt).subs.length < 4) :
    toggleSub x c s = (modRec x (fun r => { r with subs := r.subs ++ [c] }) s, some .added) :=
  (if_neg h).trans (if_pos room)

theorem toggleSub_full (h : c ∉ (s.mix.recs[x]'x.isLt).subs) (full : 4 ≤ (s.mix.recs[x]'x.isLt).subs.length) :
    toggleSub x c s = (s, none) :=
  (if_neg h).trans (if_neg (Nat.not_lt.2 full))

end

/-! What an active key's function does, by function. -/

section
variable {c : ConfId} {p : PointId}

theorem activateFn_none (h : (keyEntry s m k).fn = .none) : activateFn m k s = s := by simp only [activateFn, h]

theorem activateFn_talkPoint (h : (keyEntry s m k).fn = .talkPoint p) :
    activateFn m k s = startTalk m k (.point p) (answerCall m p s) := by simp only [activateFn, h]

theorem activateFn_talkConf (h : (keyEntry s m k).fn = .talkConf c) : activateFn m k s = startTalk m k (.conf c) s := by
  simp only [activateFn, h]

theorem activateFn_talkTally {b : BusId} {cap : Nat} (h : (keyEntry s m k).fn = .talkTally b cap) : activateFn m k s =
    (resolvePoints s.tally b cap).foldl (fun u p => startTallyTalk m k p u)
      (modKey m k (fun y => { y with resolved := resolvePoints s.tally b cap }) s) := by
  simp only [activateFn, h]

theorem activateFn_listen {u : State} {d : Option ToggleDone} (h : (keyEntry s m k).fn = .listenConf c)
    (toggled : toggleSub (s.panel.maps[m]'m.isLt).listen c s = (u, d)) : activateFn m k s =
      if d.isNone then startWindow m k (modKey m k (fun y => { y with toggled := d }) u)
      else modKey m k (fun y => { y with toggled := d }) u := by
  simp only [activateFn, h, toggled]

theorem activateFn_callUnnamed {d : Nat} (h : (keyEntry s m k).fn = .call p d)
    (unnamed : (s.panel.maps[m]'m.isLt).point = none) :
    activateFn m k s = startWindow m k s := by
  simp only [activateFn, h, unnamed]

theorem activateFn_call {d : Nat} {o : PointId} (h : (keyEntry s m k).fn = .call p d)
    (own : (s.panel.maps[m]'m.isLt).point = some o) :
    activateFn m k s = takeCallFor p o d (sendCell .call 63 none (b16 p.val ++ b16 o.val ++ [b8 d]) s) := by
  simp only [activateFn, h, own]

theorem activateFn_route {node : Byte} {dest : DestId} {x : Source} (h : (keyEntry s m k).fn = .route node dest x) :
    activateFn m k s = startRoute m k node dest x s := by
  simp only [activateFn, h]

/-- R138: the call that a talk answers. -/
theorem answerCall_called {o : PointId} (own : (s.panel.maps[m]'m.isLt).point = some o)
    (called : ∃ c ∈ s.tally.calls, c.target = o ∧ c.caller = p) :
    answerCall m p s = cancelCall o p (sendCell .callCancel 63 none (b16 o.val ++ b16 p.val) s) := by
  obtain ⟨c, hc, same⟩ := called
  have any : s.tally.calls.any (isCall o p) = true := List.any_eq_true.2 ⟨c, hc, isCall_iff.2 same⟩
  simp only [answerCall, own, any, if_true]

theorem answerCall_uncalled
    (uncalled : ∀ o, (s.panel.maps[m]'m.isLt).point = some o → ∀ c ∈ s.tally.calls, ¬(c.target = o ∧ c.caller = p)) :
    answerCall m p s = s := by
  unfold answerCall
  split
  · rfl
  · next o own =>
    refine if_neg fun any => ?_
    obtain ⟨c, hc, same⟩ := List.any_eq_true.1 any
    exact uncalled o own c hc (isCall_iff.1 same)

theorem readSource_bytes (x : Source) : readSource (halfAt (sourceBytes x) 0) = some x := by
  have read := readSource_sourceBytes x []
  rwa [List.append_nil] at read

/-- R72: the codes with which a protection refuses a take. -/
theorem takeRefusal_some {p : Protection} {q : Byte} {code : Code} (h : takeRefusal p q = some code) :
    code = .protectedBy ∨ code = .locked := by
  cases p with
  | free => cases h
  | protectedBy o =>
    have shut : (if o = q then none else some Code.protectedBy) = some code := h
    split at shut
    · cases shut
    · exact .inl (Option.some.inj shut).symm
  | lockedBy o => exact .inl (Option.some.inj h).symm
  | airlocked => exact .inr (Option.some.inj h).symm

/-- R139: a take on the key's own node that the protection allows. -/
theorem startRoute_own {dest : DestId} {x : Source}
    (open_ : (s.router.routes[dest]'dest.isLt).prot = .free ∨
      (s.router.routes[dest]'dest.isLt).prot = .protectedBy s.trunk.addr) :
    startRoute m k s.trunk.addr dest x s = modKey m k (fun y => { y with route := .confirm 50 })
      (setPending s.trunk.addr .next (dest, x) s) := by
  have judged : judgePairs s.router s.trunk.addr [] [(b8 dest.val, halfAt (sourceBytes x) 0)] = .pass [(dest, x)] :=
    judgePairs_good (.cons ⟨b8_toNat_of_lt (by omega), readSource_bytes x, open_⟩ .nil) (List.nodup_singleton _)
  have now : isLate s.sp.epoch .next = false := by cases s.sp.epoch <;> rfl
  have code : (if 0 < countPending s.router [(dest, x)] then Code.replaced else .ok) = .replaced ∨
      (if 0 < countPending s.router [(dest, x)] then Code.replaced else .ok) = .ok := by
    split
    · exact .inl rfl
    · exact .inr rfl
  unfold startRoute
  rw [if_pos rfl]
  dsimp only
  rw [routerTake_pass judged]
  simp only [acceptTake, now, heldTarget, Bool.false_eq_true, if_false]
  rcases code with code | code <;> rw [code] <;> rfl

/-- R139: a take on the key's own node that the protection refuses. -/
theorem startRoute_refused {dest : DestId} {x : Source}
    (shut : ¬((s.router.routes[dest]'dest.isLt).prot = .free ∨
      (s.router.routes[dest]'dest.isLt).prot = .protectedBy s.trunk.addr)) :
    startRoute m k s.trunk.addr dest x s = modKey m k (fun y => { y with route := .refused 50 })
      (recordRefusal dest s.trunk.addr s) := by
  obtain ⟨code, refused⟩ := Option.ne_none_iff_exists'.1 (takeRefusal_none.not.2 shut)
  have judged : judgePairs s.router s.trunk.addr [] [(b8 dest.val, halfAt (sourceBytes x) 0)] = .fail code 0 (some dest) :=
    judgePairs_guarded (judgePair_guarded (b8_toNat_of_lt (by omega)) (readSource_bytes x) List.not_mem_nil refused)
  unfold startRoute
  rw [if_pos rfl]
  dsimp only
  rw [routerTake_guarded judged]
  rcases takeRefusal_some refused with code | code <;> subst code <;> rfl

/-- R139: a take on another node. -/
theorem startRoute_away {node : Byte} {dest : DestId} {x : Source} (away : node ≠ s.trunk.addr) :
    startRoute m k node dest x s =
      let r := createCell .request node none ([4, 1, 0, 1, b8 dest.val] ++ sourceBytes x) s
      modKey m k (fun y => { y with route := .awaiting node r.2 50 }) r.1 :=
  if_neg away

end

/-! What a key's function undoes. -/

theorem deactivateFn_nothing (h : (keyEntry s m k).fn = .none ∨ (∃ p d, (keyEntry s m k).fn = .call p d) ∨
    (∃ node dest source, (keyEntry s m k).fn = .route node dest source)) : deactivateFn m k s = s := by
  rcases h with h | ⟨p, d, h⟩ | ⟨node, dest, source, h⟩ <;> simp only [deactivateFn, h]

theorem deactivateFn_talk (h : (∃ p, (keyEntry s m k).fn = .talkPoint p) ∨ (∃ c, (keyEntry s m k).fn = .talkConf c)) :
    deactivateFn m k s = modKey m k (fun y => { y with refusedLocal := false }) (endKeyOrigin m k none s) := by
  rcases h with ⟨p, h⟩ | ⟨c, h⟩ <;> simp only [deactivateFn, h]

theorem deactivateFn_tally (h : ∃ b cap, (keyEntry s m k).fn = .talkTally b cap) :
    deactivateFn m k s = modKey m k (fun y => { y with resolved := [], refusedPoints := [] }) (endKeyOrigins m k s) := by
  obtain ⟨b, cap, h⟩ := h
  simp only [deactivateFn, h]

section
variable {c : ConfId}

theorem deactivateFn_untoggled (h : (keyEntry s m k).fn = .listenConf c) (untoggled : (keyState s m k).toggled = none) :
    deactivateFn m k s = s := by
  simp only [deactivateFn, h, untoggled, Option.isNone_none, if_true]

theorem deactivateFn_listen {u : State} {d : Option ToggleDone} (h : (keyEntry s m k).fn = .listenConf c)
    (held : (keyState s m k).toggled ≠ none) (toggled : toggleSub (s.panel.maps[m]'m.isLt).listen c s = (u, d)) :
    deactivateFn m k s =
      if d.isNone then startWindow m k (modKey m k (fun y => { y with toggled := none }) u)
      else modKey m k (fun y => { y with toggled := none }) u := by
  simp only [deactivateFn, h, toggled, if_neg (Option.isNone_iff_eq_none.not.2 held)]

end

end

/-! ### Keys that start and end (R133 to R139) -/

section
variable (m : MapId) (k : KeyId) (s : State)

/-- The state in which a key is marked active, or not, before its function acts (R133). -/
def marked (b : Bool) : State := modKey m k (fun y => { y with active := b }) s

theorem marked_entry (b : Bool) : keyEntry (marked m k s b) m k = keyEntry s m k := rfl

theorem marked_toggled (b : Bool) : (keyState (marked m k s b) m k).toggled = (keyState s m k).toggled :=
  (congrArg KeyState.toggled (modKey_own ..)).trans rfl

/-- R107: a subscription that the key asks for and finds full. -/
theorem toggled_full (b : Bool) (f : KeyState → KeyState) :
    startWindow m k (modKey m k f (marked m k s b)) =
      modKey m k (fun y => { f y with window := some 50 }) (marked m k s b) := modKey_modKey ..

end

/-- Settles O44, part by part: by the key's state and function, by the table's free indexes, and by the entry that is ended. -/
theorem keyFunctionsAct : Obligations.KeyFunctionsAct := by
  refine ⟨fun m k s => ?_, fun m k sub target s => ⟨fun full => ?_,
    fun n hn i hi free first => ?_⟩, fun i s => ⟨endOrigin_none, fun e held => ⟨fun away => endOrigin_cell held away,
    fun l here => ⟨fun absent => ?_, fun present => ?_⟩⟩⟩, fun m k sub s => ⟨fun none => ?_, fun i here lowest => ?_⟩⟩
  · intro e x own listen subs key subscribed on off
    have written : key = modKey m k := rfl
    clear_value key
    subst written
    refine ⟨fun b h => setActive_already h, fun idle => ?_, fun active => ?_⟩
    · have starts : ∀ {u}, activateFn m k (marked m k s true) = u → setActive m k true s = u := fun h =>
        (setActive_starts idle).trans h
      have fn_on : ∀ {f}, (keyEntry s m k).fn = f → (keyEntry (marked m k s true) m k).fn = f := id
      refine ⟨fun fn => starts (activateFn_none (fn_on fn)), fun p fn => ⟨fun o own called => ?_, fun uncalled => ?_⟩,
        fun c fn => starts (activateFn_talkConf (fn_on fn)), fun b cap fn => starts (activateFn_talkTally (fn_on fn)),
        fun c fn => ⟨fun held => ?_, fun absent room => ?_, fun absent full => ?_⟩,
        fun p d fn => ⟨fun unnamed => starts (activateFn_callUnnamed (fn_on fn) unnamed),
          fun o own => starts (activateFn_call (fn_on fn) own)⟩,
        fun node dest source fn => ⟨fun here => ⟨fun open_ => ?_, fun shut => ?_⟩, fun away => ?_⟩⟩
      · exact starts ((activateFn_talkPoint (fn_on fn)).trans (congrArg _ (answerCall_called own called)))
      · exact starts ((activateFn_talkPoint (fn_on fn)).trans (congrArg _ (answerCall_uncalled uncalled)))
      · exact starts (activateFn_listen (fn_on fn) (toggleSub_removed held))
      · exact starts (activateFn_listen (fn_on fn) (toggleSub_added absent room))
      · exact starts ((activateFn_listen (fn_on fn) (toggleSub_full absent full)).trans (toggled_full ..))
      · subst here
        exact starts ((activateFn_route (fn_on fn)).trans (startRoute_own (s := marked m k s true) open_))
      · subst here
        exact starts ((activateFn_route (fn_on fn)).trans (startRoute_refused (s := marked m k s true) shut))
      · exact starts ((activateFn_route (fn_on fn)).trans (startRoute_away away))
    · have ends : ∀ {u}, deactivateFn m k (marked m k s false) = u → setActive m k false s = u := fun h =>
        (setActive_ends active).trans h
      have fn_off : ∀ {f}, (keyEntry s m k).fn = f → (keyEntry (marked m k s false) m k).fn = f := id
      refine ⟨fun fn => ends (deactivateFn_nothing fn), fun fn => ends (deactivateFn_talk fn),
        fun fn => ends (deactivateFn_tally fn), fun c fn => ⟨fun untoggled => ?_, fun toggled => ?_⟩⟩
      · exact ends (deactivateFn_untoggled (fn_off fn) ((marked_toggled ..).trans untoggled))
      · have held : (keyState (marked m k s false) m k).toggled ≠ none := (marked_toggled m k s false).symm ▸ toggled
        refine ⟨fun held' => ?_, fun absent room => ?_, fun absent full => ?_⟩
        · exact ends (deactivateFn_listen (fn_off fn) held (toggleSub_removed held'))
        · exact ends (deactivateFn_listen (fn_off fn) held (toggleSub_added absent room))
        · exact ends ((deactivateFn_listen (fn_off fn) held (toggleSub_full absent full)).trans (toggled_full ..))
  · rw [createOrigin, freeOrigin_full full]
  · have found : freeOrigin s.talk = some i := freeOrigin_first hn hi free first
    exact ⟨fun away => createOrigin_cell found away, fun l here => createOrigin_internal found here⟩
  · refine (endOrigin_internal held here).trans (if_neg fun any => ?_)
    obtain ⟨x, hx, is⟩ := List.any_eq_true.1 any
    exact Bool.eq_false_iff.1 (absent x hx) is
  · have any : (listOf s.talk l).any (isTalker s.trunk.addr i) = true := List.any_eq_true.2 present
    refine (endOrigin_internal held here).trans ((if_pos any).trans ?_)
    cases l <;> rfl
  · rw [endKeyOrigin, findOrigin_none none]
  · rw [endKeyOrigin, findOrigin_first here lowest]

end Sys2Proof.Machine
end

section
/-! SUPPORT. What a reader is shown: pages, entries of tables and of views, to the byte, and the answers to QUERY, STATUS and
IDENTIFY (O51). -/

namespace Sys2Proof.Machine

open Sys2Proof

-- One theorem after another: all files together, as one text, elaborate on more threads than the memory limit lets run.
set_option Elab.async false

/-! ### Runs of bytes (R207) -/

theorem atIx_val {α : Type} {n : Nat} (v : Vector α (n + 1)) (i : Fin (n + 1)) : atIx v i.val = v[i]'i.isLt := by
  have same : (⟨i.val % (n + 1), Nat.mod_lt _ (by omega)⟩ : Fin (n + 1)) = i := Fin.ext (Nat.mod_eq_of_lt i.isLt)
  simp only [atIx, same]

/-- The entries of a vector, in order. -/
theorem toList_eq_finRange {α : Type} {n : Nat} (v : Vector α n) : v.toList = (List.finRange n).map fun i => v[i]'i.isLt :=
  List.ext_getElem (by simp) fun k h1 h2 => by simp

/-- A byte of a bitmap. -/
theorem byteAt_bitmap {n set k : Nat} (h : k < n) : byteAt (bitmap n set) k = b8 (set / 256 ^ k) := by
  simp [byteAt, bitmap, h]

/-- R207: member `i` of a bitmap is bit `i mod 8` of byte `i div 8`. -/
theorem bitmap_member {n set i : Nat} (h : i < 8 * n) : (byteAt (bitmap n set) (i / 8)).getLsbD (i % 8) = set.testBit i := by
  have small : i % 8 < 8 := Nat.mod_lt _ (by decide)
  have power : 256 ^ (i / 8) = 2 ^ (8 * (i / 8)) := by rw [Nat.pow_mul]
  have place : i % 8 + 8 * (i / 8) = i := Nat.mod_add_div i 8
  rw [byteAt_bitmap (by omega), b8, BitVec.getLsbD_ofNat, decide_eq_true small, Bool.true_and, power, Nat.testBit_div_two_pow,
    place]

/-- What lies before a place does not matter behind it. -/
theorem byteAt_left {xs : List Byte} (ys : List Byte) {k : Nat} (h : k < xs.length) : byteAt (xs ++ ys) k = byteAt xs k := by
  simp [byteAt, List.getElem?_append_left h]

/-- A run laid out over `n` places, `d` where it has ended. -/
theorem padded_map {α β : Type} (f : α → β) (d : β) (n : Nat) (l : List α) (h : l.length ≤ n) :
    (List.range n).map (fun k => ((l[k]?).map f).getD d) = l.map f ++ List.replicate (n - l.length) d := by
  induction l generalizing n with
  | nil => simp
  | cons x l ih =>
    cases n with
    | zero => cases h
    | succ n =>
      rw [List.range_succ_eq_map, List.map_cons, List.map_map, List.length_cons, Nat.succ_sub_succ, List.map_cons,
        List.cons_append, ← ih n (Nat.le_of_succ_le_succ h)]
      rfl

/-- A byte of the block `k` of a run of blocks of `w` bytes. -/
theorem byteAt_blocks {f : Nat → List Byte} {w : Nat} (size : ∀ k, (f k).length = w) {n k j : Nat} (hk : k < n) (hj : j < w) :
    byteAt ((List.range n).flatMap f) (w * k + j) = byteAt (f k) j := by
  have length : ∀ n, ((List.range n).flatMap f).length = w * n := fun n => by
    rw [List.length_flatMap, List.map_congr_left fun k _ => size k]
    simp [Nat.mul_comm]
  induction n with
  | zero => cases hk
  | succ n ih =>
    rw [List.range_succ, List.flatMap_append, List.flatMap_singleton]
    rcases Nat.lt_succ_iff_lt_or_eq.1 hk with below | rfl
    · have inside : w * k + j < w * n := by
        calc w * k + j < w * (k + 1) := by rw [Nat.mul_succ]; omega
          _ ≤ w * n := Nat.mul_le_mul_left w below
      rw [byteAt_left _ (by rw [length]; exact inside), ih below]
    · rw [← length k, byteAt_append]

/-! ### Pages (R212) -/

/-- R212: sixteen flags as two bytes. -/
theorem bitmap_flags (x : BitVec 16) : bitmap 2 x.toNat = [x.setWidth 8, (x >>> 8).setWidth 8] := by
  have low : b8 (x.toNat / 256 ^ 0) = x.setWidth 8 := BitVec.eq_of_toNat_eq (by simp [b8])
  have high : b8 (x.toNat / 256 ^ 1) = (x >>> 8).setWidth 8 :=
    BitVec.eq_of_toNat_eq (by simp [b8, Nat.shiftRight_eq_div_pow])
  rw [← low, ← high]
  rfl

/-- R212: a page of drives. -/
theorem pageDrives_eq (s : State) : pageDrives 0 s ++ pageDrives 20 s =
    (List.finRange 40).map fun j => driveByte (s.tally.drives[j]'j.isLt) := by
  have shown : ∀ j : LampId, driveByte (s.tally.drives[j]'j.isLt) = driveByte (atIx s.tally.drives j.val) := fun j =>
    congrArg driveByte (atIx_val s.tally.drives j).symm
  have all : (List.finRange 40).map (fun j => driveByte (s.tally.drives[j]'j.isLt)) =
      (List.range (20 + 20)).map fun i => driveByte (atIx s.tally.drives i) := by
    rw [← List.map_coe_finRange_eq_range, List.map_map]
    exact List.map_congr_left fun j _ => shown j
  rw [all, List.range_add, List.map_append, List.map_map, pageDrives, pageDrives]
  simp only [Function.comp_def, Nat.zero_add]

/-- R182: a free spare has no link. -/
theorem freeSpares_eq (l : LampDriver) : freeSpares l = ((List.finRange 48).filter fun w =>
    (l.lines[w]'w.isLt).role == .spare && l.links.all (fun x => x.2 != w) && (l.lines[w]'w.isLt).fault != .latched).length := by
  refine congrArg List.length (List.filter_congr fun w _ => ?_)
  rw [isLinked, List.not_any_eq_all_not]
  rfl

/-- R212: four fields of six bits, read back from their three bytes. -/
theorem pack4_field {a b c d : Nat} (ha : a < 64) (hb : b < 64) (hc : c < 64) (hd : d < 64) :
    (byteAt (pack4 a b c d) 0).toNat * 65536 + (byteAt (pack4 a b c d) 1).toNat * 256 + (byteAt (pack4 a b c d) 2).toNat =
      a * 262144 + b * 4096 + c * 64 + d := by
  have first : (a * 4 + b / 16) % 2 ^ 8 = a * 4 + b / 16 := Nat.mod_eq_of_lt (by omega)
  have second : (b * 16 + c / 4) % 2 ^ 8 = b % 16 * 16 + c / 4 := by omega
  have third : (c * 64 + d) % 2 ^ 8 = c % 4 * 64 + d := by omega
  simp only [pack4, byteAt_zero, byteAt_succ, b8, BitVec.toNat_ofNat, first, second, third]
  have hb := Nat.div_add_mod b 16
  have hc := Nat.div_add_mod c 4
  linarith

theorem carriedField_small (r : LampStatus) (n : Nat) : carriedField r n < 64 := by
  unfold carriedField
  split
  · decide
  · omega

theorem carriedField_val (l : LampDriver) (w : WireId) :
    carriedField (lampStatus l) w.val = match carried l w with | none => 63 | some j => j.val := by
  have shown : atIx (lampStatus l).carried w.val = carried l w := (atIx_val _ w).trans (vof_get ..)
  unfold carriedField
  rw [shown] <;> rfl

/-- R212: the three bytes of lines `4 k` to `4 k + 3` in page 7. -/
def page7Block (r : LampStatus) (k : Nat) : List Byte :=
  pack4 (carriedField r (4 * k)) (carriedField r (4 * k + 1)) (carriedField r (4 * k + 2)) (carriedField r (4 * k + 3))

/-- R212: the field of line `w` in page 7. -/
theorem page7_field (l : LampDriver) (w : WireId) :
    let b := fun k => (byteAt (page7 (lampStatus l)) (3 * (w.val / 4) + k)).toNat
    (b 0 * 65536 + b 1 * 256 + b 2) / 64 ^ (3 - w.val % 4) % 64 = carriedField (lampStatus l) w.val := by
  intro b
  have block : ∀ k < 3, b k = (byteAt (page7Block (lampStatus l) (w.val / 4)) k).toNat := fun k hk =>
    congrArg BitVec.toNat (byteAt_blocks (f := page7Block (lampStatus l)) (w := 3) (fun _ => rfl) (by omega) hk)
  have small := carriedField_small (lampStatus l)
  have h0 := small (4 * (w.val / 4))
  have h1 := small (4 * (w.val / 4) + 1)
  have h2 := small (4 * (w.val / 4) + 2)
  have h3 := small (4 * (w.val / 4) + 3)
  rw [block 0 (by decide), block 1 (by decide), block 2 (by decide), page7Block, pack4_field h0 h1 h2 h3]
  have place : w.val = 4 * (w.val / 4) + w.val % 4 := (Nat.div_add_mod ..).symm
  have rest : w.val % 4 = 0 ∨ w.val % 4 = 1 ∨ w.val % 4 = 2 ∨ w.val % 4 = 3 := by omega
  rcases rest with r | r | r | r <;> rw [r] at place ⊢ <;> conv_rhs => rw [place]
  · show _ / 64 ^ 3 % 64 = carriedField (lampStatus l) (4 * (w.val / 4))
    omega
  · omega
  · omega
  · omega

theorem pagesShown (s : State) : PagesShown s where
  page0 := by
    show page0 s = _
    rw [page0, bitmap_flags]
    rfl
  page1 := by
    show portBytes s.trunk .east ++ portBytes s.trunk .west = portBytes s.trunk .east ++ (portBytes s.trunk .west ++ [])
    rw [List.append_nil]
  page2 := by
    show page2 s = _
    rw [page2, toList_eq_finRange, List.flatMap_map]
    refine congrArg₂ (· ++ ·) ?_ (congrArg (List.flatMap · _) (funext fun i => ?_))
    · rfl
    · dsimp only
      cases (s.panel.lines[i]'i.isLt).map <;> rfl
  page3 := by
    have bits : ∀ (p : Nat → Bool) (i : GpiId), (byteAt (bitmap 2 (bitsOf 16 p)) (i.val / 8)).getLsbD (i.val % 8) = p i.val :=
      fun p i => by rw [bitmap_member (by omega), testBit_bitsOf, decide_eq_true i.isLt, Bool.true_and]
    refine ⟨rfl, fun i => ⟨?_, ?_⟩⟩
    · refine (congrArg (fun x : Byte => x.getLsbD (i.val % 8)) (byteAt_left _ ?_)).trans
        ((bits _ i).trans (congrArg GpiState.cond (atIx_val s.tally.gpiState i)))
      rw [bitmap_length]
      omega
    · exact (congrArg (fun x : Byte => x.getLsbD (i.val % 8)) (byteAt_append (bitmap 2 _) _ _)).trans
        ((bits _ i).trans (congrArg GpiState.mark (atIx_val s.tally.gpiState i)))
  drives := ⟨by simp [pageBytes, pageDrives], by simp [pageBytes, pageDrives], pageDrives_eq s⟩
  page6 := by
    show page6 (lampStatus s.lamp) = _
    rw [← freeSpares_eq]
    rfl
  page7 := by
    refine ⟨?_, fun w => (page7_field s.lamp w).trans (carriedField_val s.lamp w)⟩
    show (page7 (lampStatus s.lamp)).length = 36
    simp [page7, List.length_flatMap, pack4]
  lamps := ⟨rfl, fun w => ⟨vof_get .., vof_get ..⟩⟩

/-! ### Entries of the tables (R213) -/

/-- R213: the terms of a TALLYMAP record, and zeros in the places behind them. -/
theorem terms_padded (l : List Term) (h : l.length ≤ 4) :
    ((List.range 4).flatMap fun k => ((l[k]?).map termBytes).getD [0, 0, 0, 0, 0]) =
      l.flatMap termBytes ++ List.replicate (5 * (4 - l.length)) 0 := by
  have zeros : ([0, 0, 0, 0, 0] : List Byte) = List.replicate 5 0 := rfl
  rw [List.flatMap_def, padded_map termBytes _ 4 l h, List.flatten_append, zeros, List.flatten_replicate_replicate,
    Nat.mul_comm]
  rfl

/-- R213: the on-air bit lies beside the kind of the drive. -/
theorem air_kind (b : Bool) : let air : Byte := if b = true then 0x80 else 0; air ||| 1 = air + 1 ∧ air ||| 2 = air + 2 := by
  cases b <;> decide

theorem termBytes_eq (x : Term) : termBytes x = [b8 x.bus.val, x.source] ++
    let air : Byte := if x.air = true then 0x80 else 0
    match x.drive with
    | .dim n => [air + 1, b8 n, 0]
    | .flash a b => [air + 2, b8 a, b8 b]
    | _ => [air, 0, 0] := by
  obtain ⟨dim, flash⟩ := air_kind x.air
  unfold termBytes
  dsimp only
  rw [dim, flash] <;> rfl

/-- R171: the first link of a lamp is the one shown. -/
theorem linkOf_first {l : LampDriver} {j : LampId} {pre post : List (LampId × WireId)} {w : WireId}
    (links : l.links = pre ++ (j, w) :: post) (before : ∀ y ∈ pre, y.1 ≠ j) : linkOf l j = some w := by
  have skipped : pre.find? (fun x => x.1 == j) = none :=
    List.find?_eq_none.2 fun y hy same => before y hy (beq_iff_eq.1 same)
  rw [linkOf, links, List.find?_append, skipped, Option.none_or, List.find?_cons_of_pos (by simp)]
  rfl

theorem linkOf_none {l : LampDriver} {j : LampId} (h : ∀ y ∈ l.links, y.1 ≠ j) : linkOf l j = none := by
  rw [← Option.isNone_iff_eq_none, linkOf_isNone_iff]
  exact fun ⟨y, hy, same⟩ => h y hy same

theorem tablesShown (s : State) : TablesShown s where
  route d := by
    show routeBytes (atIx s.router.routes d.val) = _
    rw [show atIx s.router.routes d.val = s.router.routes[d]'d.isLt from atIx_val ..]
    generalize s.router.routes[d]'d.isLt = e
    obtain ⟨active, prot, pending, slot, collision⟩ := e
    cases prot <;> cases slot <;> rcases pending with _ | ⟨source, target, q⟩ <;> rfl
  mix m few := by
    show mixBytes (atIx s.mix.recs m.val) = _
    rw [show atIx s.mix.recs m.val = s.mix.recs[m]'m.isLt from atIx_val .., mixBytes, padded_map _ _ 4 _ few]
    simp only [List.append_assoc]
    cases (s.mix.recs[m]'m.isLt).own <;> rfl
  conf c := congrArg (fun x : ConfEntry => [flagByte x.home]) (atIx_val s.talk.confs c)
  keymap m := ⟨congrArg keyMapBytes (atIx_val s.panel.maps m), fun _ => rfl⟩
  key n := ⟨congrArg keyEntryBytes (atIx_val s.panel.entries n), fun _ => rfl⟩
  camera n := congrArg pointBytes (atIx_val s.tally.camera n)
  tallymap j := by
    refine ⟨congrArg tallyBytes (atIx_val s.tally.map j), fun r few => ?_⟩
    rw [tallyBytes, terms_padded r.terms few, funext termBytes_eq]
    simp only [List.append_assoc] <;> rfl
  line w := congrArg lineBytes (atIx_val s.lamp.lines w)
  subst j := by
    have place : (⟨j.val % 40, Nat.mod_lt _ (by omega)⟩ : LampId) = j := Fin.ext (Nat.mod_eq_of_lt j.isLt)
    have shown : tableBytes s .subst j.val = [optByte (linkOf s.lamp j)] :=
      congrArg (fun x => [optByte (linkOf s.lamp x)]) place
    refine ⟨fun none => ?_, fun pre w post links before => ?_⟩
    · rw [shown, linkOf_none none]
      rfl
    · rw [shown, linkOf_first links before]
      rfl
  gpi i := ⟨congrArg gpiBytes (atIx_val s.tally.gpi i), fun _ => rfl⟩
  sched := ⟨rfl, fun i => congrArg (fun x => [classCode x]) (atIx_val s.cells.sched i)⟩
  node := rfl

/-! ### Entries of the views (R213) -/

/-- R213: a set of sources behind two bytes. -/
theorem setBytes_shown (flags e : Byte) (set : SourceSet) :
    let l := [flags, e] ++ bitmap 32 set.toNat
    l.length = 34 ∧ byteAt l 0 = flags ∧ byteAt l 1 = e ∧
      ∀ id : Byte, (byteAt l (2 + id.toNat / 8)).getLsbD (id.toNat % 8) = set.getLsbD id.toNat := by
  refine ⟨by simp [bitmap_length], rfl, rfl, fun id => ?_⟩
  rw [show byteAt ([flags, e] ++ bitmap 32 set.toNat) (2 + id.toNat / 8) = byteAt (bitmap 32 set.toNat) (id.toNat / 8) from
    byteAt_append [flags, e] .., bitmap_member (by omega), BitVec.testBit_toNat]

theorem viewsShown (s : State) : ViewsShown s where
  origins i := by
    show originBytes (atIx s.talk.origins i.val) = _
    rw [show atIx s.talk.origins i.val = s.talk.origins[i]'i.isLt from atIx_val ..]
    rcases s.talk.origins[i]'i.isLt with _ | ⟨m, k, sub, target, point, slot, prio, state, countdown, unanswered⟩
    · rfl
    · cases sub <;> rfl
  talkers k := by
    refine ⟨fun m => ?_, fun c => ?_⟩
    · show talkerBytes s (m.val * 8 + k.val) = _
      have list : (m.val * 8 + k.val) / 8 = m.val := by omega
      have place : (m.val * 8 + k.val) % 8 = k.val := by omega
      have rec_ : atIx s.mix.recs m.val = s.mix.recs[m]'m.isLt := atIx_val ..
      have direct : atIx s.talk.direct m.val = s.talk.direct[m]'m.isLt := atIx_val ..
      simp only [talkerBytes, list, place, if_pos m.isLt, decide_eq_false (Nat.not_le.2 m.isLt), Bool.false_and,
        Bool.false_eq_true, if_false, rec_, direct]
      cases (s.talk.direct[m]'m.isLt)[k.val]? <;> rfl
    · show talkerBytes s ((24 + c.val) * 8 + k.val) = _
      have list : ((24 + c.val) * 8 + k.val) / 8 = 24 + c.val := by omega
      have place : ((24 + c.val) * 8 + k.val) % 8 = k.val := by omega
      have conf : atIx s.talk.confs c.val = s.talk.confs[c]'c.isLt := atIx_val ..
      have high : ¬24 + c.val < 24 := by omega
      simp only [talkerBytes, list, place, if_neg high, decide_eq_true (Nat.le_add_right 24 c.val), Bool.true_and,
        Nat.add_sub_cancel_left, conf]
      cases (s.talk.confs[c]'c.isLt).list[k.val]? <;> cases (s.talk.confs[c]'c.isLt).home <;> rfl
  buses b := by
    have bus : ∀ n, n / 2 = b.val → atIx s.tally.buses (n / 2) = s.tally.buses[b]'b.isLt := fun n h => by
      rw [h]
      exact atIx_val ..
    have active : viewBytes s .buses (b.val * 2) = [0, 0] ++ bitmap 32 (s.tally.buses[b]'b.isLt).active.toNat := by
      show busBytes (atIx s.tally.buses (b.val * 2 / 2)) (b.val * 2 % 2 == 1) = _
      rw [bus _ (by omega), Nat.mul_mod_left]
      rfl
    have pending : viewBytes s .buses (b.val * 2 + 1) = busBytes (s.tally.buses[b]'b.isLt) true := by
      show busBytes (atIx s.tally.buses ((b.val * 2 + 1) / 2)) ((b.val * 2 + 1) % 2 == 1) = _
      have odd : (b.val * 2 + 1) % 2 = 1 := by omega
      rw [bus _ (by omega), odd]
      rfl
    refine ⟨?_, ?_⟩
    · rw [active]
      exact setBytes_shown 0 0 _
    · rw [pending]
      cases h : (s.tally.buses[b]'b.isLt).pending with
      | none => simp only [busBytes, h, if_true]
      | some x =>
        obtain ⟨set, target⟩ := x
        cases target with
        | next =>
          simp only [busBytes, h, if_true]
          exact setBytes_shown 3 0 set
        | epoch e =>
          simp only [busBytes, h, if_true]
          exact setBytes_shown 1 e set
  calls k := by
    show callBytes s.tally.calls[k.val]? = _
    cases s.tally.calls[k.val]? <;> rfl
  counters := by
    have value : ∀ k, viewBytes s .counters k = (((counterList s)[k]?).map b16).getD (b16 0) := fun k => by
      show b16 ((counterList s)[k]?.getD 0) = _
      cases (counterList s)[k]? <;> rfl
    have size : (counterList s).length = 24 := by simp [counterList]
    rw [funext value, padded_map b16 _ 24 _ size.le, size, counterList, toList_eq_finRange, List.map_map]
    exact List.append_nil _

/-! ### QUERY, STATUS and IDENTIFY (R194, R201) -/

section
variable {s : State} {src tag : Byte}

/-- R189: a request that changes nothing is answered, and that is all. -/
theorem read_served {r : Request} {a : Answer} (fresh : Fresh s src tag (requestCode r)) (other : isPage1 r = false)
    (served : serve src r s = (s, a)) :
    request src tag r s = .next (replied src tag (requestCode r) a.code a.fields s) := by
  rw [request_fresh fresh other, served]

theorem viewOf_table {table : Byte} {v : View} (h : viewOf table = some v) : tableOf table = none := by
  by_cases low : table.toNat < 12
  · rw [viewOf, if_pos low] at h
    cases h
  · exact List.getElem?_eq_none (Nat.not_lt.1 low)

/-- R194: the tests of a QUERY, in their order. -/
theorem queryTests_cases {size start count : Nat} {good : Answer} :
    (size ≤ start → queryTests size start count good = plain .range) ∧
    (start < size → count = 0 ∨ size < count → queryTests size start count good = plain .invalid) ∧
    (start < size → count ≠ 0 → count ≤ size → queryTests size start count good = good) := by
  refine ⟨fun far => if_pos far, fun near bad => ?_, fun near some_ fits => ?_⟩
  · rw [queryTests, if_neg (Nat.not_le.2 near), if_pos (by simpa using bad)]
  · rw [queryTests, if_neg (Nat.not_le.2 near), if_neg (by simpa using ⟨some_, fits⟩)]

theorem query_served {table : Byte} {start count : Half} {a : Answer} (fresh : Fresh s src tag 0)
    (h : serveQuery table start count s = a) :
    exec (.query src tag table start count) s = .next (replied src tag 0 a.code a.fields s) := by
  have served : serve src (.query table start count) s = (s, a) := by rw [← h]; rfl
  exact read_served (r := .query table start count) fresh rfl served

theorem status_served {page : Byte} {a : Answer} (fresh : Fresh s src tag 10) (other : page ≠ 1) (h : serveStatus page s = a) :
    exec (.status src tag page) s = .next (replied src tag 10 a.code a.fields s) := by
  have served : serve src (.status page) s = (s, a) := by rw [← h]; rfl
  exact read_served (r := .status page) fresh (beq_eq_false_iff_ne.2 other) served

/-- R194: a QUERY that is judged by its tests alone. -/
theorem query_judged {table : Byte} {start count : Half} {size : Nat} {good : Answer} (fresh : Fresh s src tag 0)
    (served : serveQuery table start count s = queryTests size start.toNat count.toNat good) (ok : good.code = .ok) :
    (size ≤ start.toNat → exec (.query src tag table start count) s = .next (replied src tag 0 .range [] s)) ∧
    (start.toNat < size → count = 0 ∨ size < count.toNat →
      exec (.query src tag table start count) s = .next (replied src tag 0 .invalid [] s)) ∧
    (start.toNat < size → count ≠ 0 → count.toNat ≤ size →
      exec (.query src tag table start count) s = .next (replied src tag 0 .ok good.fields s)) := by
  have answered : ∀ a, serveQuery table start count s = a →
      exec (.query src tag table start count) s = .next (replied src tag 0 a.code a.fields s) := fun a ha =>
    query_served fresh ha
  have zero : count = 0 ↔ count.toNat = 0 := ⟨fun h => h ▸ rfl, fun h => BitVec.eq_of_toNat_eq h⟩
  obtain ⟨range, invalid, fits⟩ := queryTests_cases (size := size) (start := start.toNat) (count := count.toNat) (good := good)
  refine ⟨fun far => answered (plain .range) (served.trans (range far)), fun near bad => ?_, fun near some_ few => ?_⟩
  · exact answered (plain .invalid) (served.trans (invalid near (bad.imp_left zero.1)))
  · rw [answered good (served.trans (fits near (zero.not.1 some_) few)), ok]

/-- R47, R48: a reply to another node stands in a buffer, or is lost for want of one. -/
theorem reply_created {dest : Byte} (payload : List Byte) (some_ : dest ≠ 0) (foreign : dest ≠ s.trunk.addr) :
    (s.cells.free = 0 → (createCell .reply dest (some tag) payload s).2 = none) ∧
    (0 < s.cells.free → (createCell .reply dest (some tag) payload s).2.isSome = true) := by
  refine ⟨fun empty => ?_, fun room => ?_⟩
  · rw [createCell_lost (some tag) payload rfl some_ foreign empty]
  · rw [createCell, createRaw_made (some tag) payload rfl some_ foreign room]
    dsimp only
    split <;> rfl

/-- R201: whether the reply to a request was created. -/
theorem answer_created (reach : Reaches s src) (kind : Byte) (reply : List Byte) :
    (s.cells.free = 0 → (answer src tag kind reply s).2 = none) ∧
    (0 < s.cells.free → (answer src tag kind reply s).2.isSome = true) := by
  obtain ⟨_, sound, foreign⟩ := reach
  have some_ : src ≠ 0 := fun h => by subst h; exact absurd sound (by decide)
  exact reply_created (s := writeRequester src { kind := kind, tag := tag, reply := reply, count := 0 } s)
    (kind :: reply) some_ foreign

/-- R201: a STATUS of page 1 whose reply was created returns link integrity to CLEAN. -/
theorem status_page1 (fresh : Fresh s src tag 10) : exec (.status src tag 1) s =
    .next (if (answer src tag 10 (codeByte .ok :: 1 :: pageBytes s 1) s).2.isSome = true
      then cleanIntegrity (replied src tag 10 .ok (1 :: pageBytes s 1) s)
      else replied src tag 10 .ok (1 :: pageBytes s 1) s) := by
  show request src tag (.status 1) s = _
  rw [request, act_fromCell fresh.1, takeRequestCell_fresh (r := .status 1) fresh]
  rfl

end

/-- Settles O51: the bytes by `pagesShown`, `tablesShown` and `viewsShown`, the answers by their tests. -/
theorem readRequests : Obligations.ReadRequests := by
  refine ⟨fun s => ⟨pagesShown s, tablesShown s, viewsShown s⟩, fun s src tag => ⟨fun kind _ fresh => ?_, fun fresh => ?_,
    fun page fresh => ⟨fun far => ?_, fun near other => ?_, fun first => ?_⟩, fun table start count fresh => ⟨fun far => ?_,
    fun t code => ?_, fun v view => ?_⟩⟩⟩
  · exact read_served (r := .unknown kind) (a := plain .unknown) fresh rfl rfl
  · exact read_served (r := .identify) (a := serveIdentify s) fresh rfl rfl
  · have answer : serveStatus page s = plain .range := if_pos far
    exact status_served (a := plain .range) fresh (fun h => by subst h; exact absurd far (by decide)) answer
  · have answer : serveStatus page s = { code := .ok, fields := page :: pageBytes s page } := if_neg (Nat.not_lt.2 near)
    exact status_served (a := { code := .ok, fields := page :: pageBytes s page }) fresh other answer
  · subst first
    obtain ⟨lost, made⟩ := answer_created (tag := tag) fresh.1 10 (codeByte .ok :: 1 :: pageBytes s 1)
    refine ⟨_, status_page1 fresh, fun empty => ?_, fun room => ?_⟩
    · rw [lost empty]
      rfl
    · rw [if_pos (made room)]
      have trunk : (replied src tag 10 .ok (1 :: pageBytes s 1) s).trunk = s.trunk :=
        (answer_only ..).keep .trunk (by decide)
      rw [cleanIntegrity, State.modTrunk, trunk]
  · have noTable : tableOf table = none := List.getElem?_eq_none (Nat.le_trans (by decide) far)
    have noView : viewOf table = none := by
      rw [viewOf, if_neg (by omega)]
      exact List.getElem?_eq_none (Nat.le_sub_of_add_le far)
    have answer : serveQuery table start count s = plain .unknown := by simp only [serveQuery, noTable, noView]
    exact query_served (a := plain .unknown) fresh answer
  · subst code
    refine query_judged fresh ?_ rfl
    simp only [serveQuery, tableOf_tableCode]
    refine congrArg (queryTests _ _ _) ?_
    simp only [queryReply, List.append_nil]
    rfl
  · refine query_judged fresh ?_ rfl
    simp only [serveQuery, viewOf_table view, view]
    rfl

end Sys2Proof.Machine
end

section
/-! SUPPORT. Resends and lease ends, by command and at a switch point (O36). -/

namespace Sys2Proof.Machine

open Sys2Proof

-- One theorem after another: all files together, as one text, elaborate on more threads than the memory limit lets run.
set_option Elab.async false

theorem set_same {α : Type} {n : Nat} {v : Vector α n} {i : Fin n} {x : α} (h : v[i]'i.isLt = x) : v.set i x i.isLt = v :=
  h ▸ Vector.set_getElem_self ..

/-! ### Resends (R85) -/

/-- R85: an entry as a resend leaves it. -/
def resentEntry (s : State) (e : OriginEntry) : OriginEntry :=
  sentEntry s (countResend (refreshInterval s.mgmt.params.lease) e)

/-- R85: an entry whose refresh countdown fell by one. -/
def countedEntry (e : OriginEntry) : OriginEntry := { e with countdown := e.countdown - 1 }

/-- R85: an entry as a switch point leaves it. -/
def refreshedEntry (s : State) (e : OriginEntry) : OriginEntry :=
  if stillAsks e.state then (if e.countdown ≤ 1 then resentEntry s e else countedEntry e) else e

section
variable {s : State} {i : OriginId} {e : OriginEntry}

theorem resentEntry_eq (s : State) (e : OriginEntry) : resentEntry s e = { e with
    point := (s.panel.maps[e.map]'e.map.isLt).point, slot := (s.panel.maps[e.map]'e.map.isLt).slot
    prio := (s.panel.maps[e.map]'e.map.isLt).prio
    countdown := max 1 (s.mgmt.params.lease / 4)
    unanswered := if e.state = .noAnswer then 3 else min (e.unanswered + 1) 3
    state := if e.state = .noAnswer ∨ 2 ≤ e.unanswered then .noAnswer else e.state } := by
  have state : (if e.state = .noAnswer || 2 ≤ e.unanswered then OriginState.noAnswer else e.state) =
      if e.state = .noAnswer ∨ 2 ≤ e.unanswered then .noAnswer else e.state := if_congr (by simp) rfl rfl
  rw [resentEntry, sentEntry, refreshFromMap, countResend, state]
  rfl

theorem resendOrigin_held (held : s.talk.origins[i]'i.isLt = some e) : resendOrigin i s =
    sendOrigin i (withOrigin i (some (countResend (refreshInterval s.mgmt.params.lease) e)) s) := by
  rw [resendOrigin, modOrigin_held held]
  rfl

theorem resendOrigin_cell (held : s.talk.origins[i]'i.isLt = some e) (away : authorityList s e.target = none) :
    resendOrigin i s =
      sendCell .talkOn 63 none (talkOnBytes i (resentEntry s e)) (withOrigin i (some (resentEntry s e)) s) := by
  have away : authorityList (withOrigin i (some (countResend (refreshInterval s.mgmt.params.lease) e)) s) e.target = none :=
    (withOrigin_authority ..).trans away
  rw [resendOrigin_held held, sendOrigin_cell (withOrigin_same _) away, withOrigin_twice]
  rfl

theorem resendOrigin_internal {l : ListId} (held : s.talk.origins[i]'i.isLt = some e)
    (here : authorityList s e.target = some l) : resendOrigin i s =
      admitTo l e.target (ownTalker s e.map i) none (withOrigin i (some (resentEntry s e)) s) := by
  have here : authorityList (withOrigin i (some (countResend (refreshInterval s.mgmt.params.lease) e)) s) e.target = some l :=
    (withOrigin_authority ..).trans here
  rw [resendOrigin_held held, sendOrigin_internal (withOrigin_same _) here, withOrigin_twice]
  rfl

theorem resendIfDue_idle (h : ∀ e, s.talk.origins[i]'i.isLt = some e → stillAsks e.state = false ∨ e.countdown ≠ 0) :
    resendIfDue i s = s := by
  refine if_neg fun due => ?_
  unfold resendDue at due
  split at due
  · next e held =>
    rw [Bool.and_eq_true, beq_iff_eq] at due
    rcases h e held with settled | later
    · exact absurd due.1 (Bool.eq_false_iff.1 settled)
    · exact later due.2
  · cases due

theorem resendIfDue_due (held : s.talk.origins[i]'i.isLt = some e) (asks : stillAsks e.state = true) (zero : e.countdown = 0) :
    resendIfDue i s = resendOrigin i s := by
  have due : resendDue s.talk i = true := by simp [resendDue, held, asks, zero]
  rw [resendIfDue, if_pos due]

/-- R85: a switch point leaves an index whose entry asks for nothing. -/
theorem refreshOrigin_idle (h : ∀ e, s.talk.origins[i]'i.isLt = some e → stillAsks e.state = false) :
    refreshOrigin i s = s := by
  have kept : modOrigin i (fun e => if stillAsks e.state then { e with countdown := e.countdown - 1 } else e) s = s := by
    cases held : s.talk.origins[i]'i.isLt with
    | none =>
      have same : vmod s.talk.origins i
          (Option.map fun e => if stillAsks e.state then { e with countdown := e.countdown - 1 } else e) = s.talk.origins := by
        refine set_same ?_
        rw [held]
        rfl
      exact congrArg (fun x => { s with talk := { s.talk with origins := x } }) same
    | some e =>
      rw [modOrigin_held held, h e held, if_neg Bool.false_ne_true]
      rw [set_same held]
  rw [refreshOrigin, kept]
  exact resendIfDue_idle fun e held => .inl (h e held)

/-- R85: else its count falls, and it is served as by its command. -/
theorem refreshOrigin_counted (held : s.talk.origins[i]'i.isLt = some e) (asks : stillAsks e.state = true) :
    refreshOrigin i s = resendIfDue i (withOrigin i (some (countedEntry e)) s) := by
  rw [refreshOrigin, modOrigin_held held, asks]
  rfl

end

/-! ### Ends of leases (R95) -/

section
variable {l : ListId} {n : Byte} {i : OriginId} {s : State}

theorem leaseOver_iff : leaseOver l n i s.talk = true ↔ ∃ x ∈ listOf s.talk l, x.node = n ∧ x.origin = i ∧ x.lease = 0 := by
  simp [leaseOver, isTalker, and_assoc]

/-- What an expiry does to the lists: the talker leaves. -/
theorem expireTalker_talk (l : ListId) (n : Byte) (i : OriginId) (s : State) :
    (expireTalker l n i s).talk = (modList l (dropTalker n i) s).talk := by
  have reported : ∀ u, (reportExpired l n i u).talk = u.talk := fun u => (reportExpired_only ..).keep .talk (by decide)
  unfold expireTalker
  dsimp only
  split
  · exact reported _
  · split
    · exact (reported _).trans ((sendCell_only ..).keep .talk (by decide))
    · rfl

theorem modList_home (f : List Talker → List Talker) (c : ConfId) :
    ((modList l f s).talk.confs[c]'c.isLt).home = (s.talk.confs[c]'c.isLt).home := by
  cases l with
  | direct m => rfl
  | conf d =>
    have entry : (modList (.conf d) f s).talk.confs[c]'c.isLt =
        if d = c then { s.talk.confs[d]'d.isLt with list := f (s.talk.confs[d]'d.isLt).list } else s.talk.confs[c]'c.isLt :=
      vmod_get ..
    rw [entry]
    split
    · next same => rw [← same]
    · rfl

theorem expireTalker_point {m : MixId} {p : PointId} (point : (s.mix.recs[m]'m.isLt).point = some p) :
    expireTalker (.direct m) n i s =
      report .talkExpired ([0] ++ b16 p.val ++ [n, b8 i.val] ++ epochBytes s.sp.epoch)
        (modList (.direct m) (dropTalker n i) s) := by
  have target : listTarget (modList (.direct m) (dropTalker n i) s) (.direct m) = some (.point p) :=
    congrArg (Option.map TalkTarget.point) point
  simp only [expireTalker, reportExpired, target]
  rfl

theorem expireTalker_pointless {m : MixId} (point : (s.mix.recs[m]'m.isLt).point = none) :
    expireTalker (.direct m) n i s = modList (.direct m) (dropTalker n i) s := by
  have target : listTarget (modList (.direct m) (dropTalker n i) s) (.direct m) = none :=
    congrArg (Option.map TalkTarget.point) point
  simp only [expireTalker, reportExpired, target]

theorem expireTalker_home {c : ConfId} (home : (s.talk.confs[c]'c.isLt).home = true) :
    expireTalker (.conf c) n i s =
      report .talkExpired ([1] ++ b16 c.val ++ [n, b8 i.val] ++ epochBytes s.sp.epoch)
        (sendCell .confOff 63 none [b8 c.val, n, b8 i.val] (modList (.conf c) (dropTalker n i) s)) := by
  have sp : (announceOff c n i (modList (.conf c) (dropTalker n i) s)).sp = s.sp :=
    (sendCell_only ..).keep .sp (by decide)
  simp only [expireTalker, modList_home, home, if_true, reportExpired, listTarget, epochField, sp]
  rfl

theorem expireTalker_mirror {c : ConfId} (away : (s.talk.confs[c]'c.isLt).home = false) :
    expireTalker (.conf c) n i s = modList (.conf c) (dropTalker n i) s := by
  simp only [expireTalker, modList_home, away, Bool.false_eq_true, if_false]

end

/-! ### A list at a switch point (R95) -/

/-- R95: the leases of a list, each lowered by one. -/
def lowered (l : List Talker) : List Talker := l.map fun x => { x with lease := x.lease - 1 }

/-- R95: a list as a switch point leaves it. -/
def lapsed (l : List Talker) : List Talker := (l.filter fun x => 2 ≤ x.lease).map fun x => { x with lease := x.lease - 1 }

section
variable {l : ListId} {s : State}

theorem countdownList_eq (l : ListId) (s : State) : countdownList l s =
    ((listOf s.talk l).filter fun x => x.lease ≤ 1).foldl (fun u x => expireTalker l x.node x.origin u)
      (modList l lowered s) := by
  have ended : ((listOf (modList l lowered s).talk l).filter fun t => t.lease == 0) =
      ((listOf s.talk l).filter fun x => x.lease ≤ 1).map fun x => { x with lease := x.lease - 1 } := by
    rw [modList_same, lowered, List.filter_map]
    refine congrArg (List.map _) (List.filter_congr fun x _ => ?_)
    simp only [Function.comp]
    rw [Bool.eq_iff_iff, beq_iff_eq, decide_eq_true_eq]
    omega
  show ((listOf (modList l lowered s).talk l).filter fun t => t.lease == 0).foldl
    (fun acc t => expireTalker l t.node t.origin acc) (modList l lowered s) = _
  rw [ended, List.foldl_map]

/-- R90, R95: the talkers still to expire, each once, stand in the list with their lease at 0. -/
def EndsWaiting (l : ListId) (waiting : List Talker) (u : State) : Prop :=
  waiting.Pairwise (fun a b => ¬(a.node = b.node ∧ a.origin = b.origin)) ∧
    ∀ x ∈ waiting, ∃ y ∈ listOf u.talk l, y.node = x.node ∧ y.origin = x.origin ∧ y.lease = 0

theorem EndsWaiting.lowered (sound : ListSound (listOf s.talk l)) :
    EndsWaiting l ((listOf s.talk l).filter fun x => x.lease ≤ 1) (modList l lowered s) := by
  refine ⟨sound.2.sublist List.filter_sublist, fun x hx => ?_⟩
  obtain ⟨held, low⟩ := List.mem_filter.1 hx
  rw [decide_eq_true_eq] at low
  refine ⟨{ x with lease := x.lease - 1 }, ?_, rfl, rfl, Nat.sub_eq_zero_of_le low⟩
  rw [modList_same]
  exact List.mem_map_of_mem held

/-- R95: when the next has expired, the others wait on. -/
theorem EndsWaiting.step {x : Talker} {rest : List Talker} {u : State} (h : EndsWaiting l (x :: rest) u) :
    EndsWaiting l rest (expireTalker l x.node x.origin u) := by
  obtain ⟨distinct, waits⟩ := h
  obtain ⟨first, later⟩ := List.pairwise_cons.1 distinct
  refine ⟨later, fun y hy => ?_⟩
  obtain ⟨z, hz, node, origin, zero⟩ := waits y (List.mem_cons_of_mem x hy)
  refine ⟨z, ?_, node, origin, zero⟩
  rw [expireTalker_talk, modList_same, mem_dropTalker]
  exact ⟨hz, fun same => first y hy ⟨(same.1.symm.trans node), (same.2.symm.trans origin)⟩⟩

/-- R95: the next to expire does so by its command too. -/
theorem EndsWaiting.command {x : Talker} {rest : List Talker} {u : State} (h : EndsWaiting l (x :: rest) u)
    (member : isMember u.trunk = true) :
    exec (.leaseExpiry l x.node x.origin) u = .next (expireTalker l x.node x.origin u) := by
  have ends : leaseOver l x.node x.origin u.talk = true := leaseOver_iff.2 (h.2 x List.mem_cons_self)
  show act (expireIfDue l x.node x.origin) u = _
  rw [act, if_pos member, expireIfDue, if_pos ends]

/-- R95: the expiries of a list are those of the commands. -/
theorem expiries_by_command {waiting : List Talker} {u : State} (h : EndsWaiting l waiting u)
    (member : isMember u.trunk = true) :
    waiting.foldl (fun u x => expireTalker l x.node x.origin u) u =
      waiting.foldl (fun u x => match exec (.leaseExpiry l x.node x.origin) u with | .next v => v | _ => u) u := by
  induction waiting generalizing u with
  | nil => rfl
  | cons x rest ih =>
    have still : isMember (expireTalker l x.node x.origin u).trunk = true := by
      rw [(expireTalker_only ..).keep .trunk (by decide)]
      exact member
    rw [List.foldl_cons, List.foldl_cons, h.command member, ih h.step still]

/-- R95: a talker that expires leaves the other talkers of its list. -/
theorem EndsWaiting.list {waiting : List Talker} {u : State} (h : EndsWaiting l waiting u) :
    listOf (waiting.foldl (fun u x => expireTalker l x.node x.origin u) u).talk l =
      (listOf u.talk l).filter fun y => !waiting.any fun x => isTalker x.node x.origin y := by
  induction waiting generalizing u with
  | nil => simp
  | cons x rest ih =>
    rw [List.foldl_cons, ih h.step, expireTalker_talk, modList_same, dropTalker, List.filter_filter]
    refine List.filter_congr fun y _ => ?_
    rw [List.any_cons, Bool.not_or, Bool.and_comm]

/-- R90: of a sound list, the talkers that are not among the ended are those that go on. -/
theorem filter_ended {L : List Talker} (sound : ListSound L) :
    ((lowered L).filter fun y => !(L.filter fun x => x.lease ≤ 1).any fun x => isTalker x.node x.origin y) = lapsed L := by
  rw [lowered, List.filter_map]
  refine congrArg (List.map _) (List.filter_congr fun x hx => ?_)
  simp only [Function.comp]
  rw [Bool.eq_iff_iff, Bool.not_eq_true', Bool.eq_false_iff, ne_eq, List.any_eq_true, decide_eq_true_eq]
  constructor
  · intro stays
    by_contra low
    exact stays ⟨x, List.mem_filter.2 ⟨hx, decide_eq_true (by omega)⟩, isTalker_iff.2 ⟨rfl, rfl⟩⟩
  · rintro goes ⟨y, hy, same⟩
    obtain ⟨held, low⟩ := List.mem_filter.1 hy
    have key : talkerKey y = talkerKey x := by
      obtain ⟨node, origin⟩ := isTalker_iff.1 same
      exact Prod.ext node.symm origin.symm
    have one := List.inj_on_of_nodup_map (listSound_iff_keys.1 sound).2 held hx key
    rw [one, decide_eq_true_eq] at low
    omega

end

/-! ### What a switch point does to the talk (R85, R95, R96) -/

/-- Of the talk at least the home flags stand, and the blocks and parameters that talk reads. -/
structure TalkFrame (s t : State) : Prop where
  only : Only talkBlocks s t
  flags : FlagsRise s t
  homes : ∀ c : ConfId, (t.talk.confs[c]'c.isLt).home = (s.talk.confs[c]'c.isLt).home

section
variable {s t u : State}

theorem TalkFrame.refl (s : State) : TalkFrame s s := ⟨.refl _ s, .refl s, fun _ => rfl⟩

theorem TalkFrame.trans (h : TalkFrame s t) (g : TalkFrame t u) : TalkFrame s u :=
  ⟨h.only.trans g.only, h.flags.trans g.flags, fun c => (g.homes c).trans (h.homes c)⟩

theorem TalkFrame.authority (h : TalkFrame s t) (target : TalkTarget) : authorityList t target = authorityList s target :=
  authorityList_congr (h.only.keep .mix (by decide)) h.homes target

theorem TalkFrame.addr (h : TalkFrame s t) : t.trunk.addr = s.trunk.addr := by rw [h.only.keep .trunk (by decide)]

theorem TalkFrame.maps (h : TalkFrame s t) : t.panel.maps = s.panel.maps := by rw [h.only.keep .panel (by decide)]

theorem TalkFrame.lease (h : TalkFrame s t) : t.mgmt.params.lease = s.mgmt.params.lease := by rw [h.flags.1]

theorem TalkFrame.refreshed (h : TalkFrame s t) (e : OriginEntry) : refreshedEntry t e = refreshedEntry s e := by
  simp only [refreshedEntry, resentEntry, sentEntry, h.maps, h.lease]

theorem TalkFrame.foldl {α : Type} {f : State → α → State} (h : ∀ s x, TalkFrame s (f s x)) (l : List α) (s : State) :
    TalkFrame s (l.foldl f s) :=
  foldl_keeps (fun a x _ g => g.trans (h a x)) (.refl s)

theorem TalkFrame.forFin {n : Nat} {f : Fin n → State → State} (h : ∀ i s, TalkFrame s (f i s)) (s : State) :
    TalkFrame s (forFin n f s) :=
  .foldl (fun s i => h i s) _ s

/-- What creates cells leaves the talk. -/
theorem TalkFrame.of_cells (h : Only cellBlocks s t) (g : FlagsRise s t) : TalkFrame s t :=
  ⟨cell_talk h, g, fun c => by rw [h.keep .talk (by decide)]⟩

theorem modList_frame (l : ListId) (f : List Talker → List Talker) (s : State) : TalkFrame s (modList l f s) :=
  ⟨(modList_only ..).mono (by decide), modList_flags .., fun c => modList_home f c⟩

theorem withOrigin_frame (i : OriginId) (x : Option OriginEntry) (s : State) : TalkFrame s (withOrigin i x s) :=
  ⟨modTalk_talk s fun t => { t with origins := t.origins.set i x i.isLt }, .of_eq rfl, fun _ => rfl⟩

theorem expireTalker_frame (l : ListId) (n : Byte) (i : OriginId) (s : State) : TalkFrame s (expireTalker l n i s) :=
  ⟨expireTalker_only .., expireTalker_flags .., fun c => by rw [expireTalker_talk, modList_home]⟩

theorem countdownList_frame (l : ListId) (s : State) : TalkFrame s (countdownList l s) := by
  rw [countdownList_eq]
  exact (modList_frame ..).trans (.foldl (fun _ _ => expireTalker_frame ..) _ _)

theorem countdownLeases_frame (s : State) : TalkFrame s (countdownLeases s) :=
  (TalkFrame.forFin (fun _ _ => countdownList_frame ..) s).trans (.forFin (fun _ _ => countdownList_frame ..) _)

end

/-! Places of a run over all indexes. -/

/-- What each index leaves, the run leaves. -/
theorem forFin_stands {α β : Type} {n : Nat} {f : Fin n → α → α} (g : α → β) (h : ∀ i a, g (f i a) = g a) (a : α) :
    g (forFin n f a) = g a :=
  foldl_keeps (P := fun b => g b = g a) (fun b i _ kept => (h i b).trans kept) rfl

/-- A run over all indexes comes from `P` to `Q` at index `i`, where the other indexes leave both. -/
theorem forFin_at {α : Type} {n : Nat} {f : Fin n → α → α} {P Q : α → Prop} (i : Fin n)
    (before : ∀ j a, j ≠ i → P a → P (f j a)) (now : ∀ a, P a → Q (f i a)) (after : ∀ j a, j ≠ i → Q a → Q (f j a)) {a : α}
    (ha : P a) : Q (forFin n f a) := by
  obtain ⟨pre, post, split⟩ := List.append_of_mem (List.mem_finRange i)
  have distinct : (pre ++ i :: post).Nodup := split ▸ List.nodup_finRange n
  have notPre : ∀ j ∈ pre, j ≠ i := fun j hj => (List.nodup_append.1 distinct).2.2 j hj i List.mem_cons_self
  have notPost : ∀ j ∈ post, j ≠ i := fun j hj same =>
    (List.nodup_cons.1 (List.nodup_append.1 distinct).2.1).1 (same ▸ hj)
  rw [forFin, split, List.foldl_append, List.foldl_cons]
  exact foldl_keeps (P := Q) (fun a j hj h => after j a (notPost j hj) h)
    (now _ (foldl_keeps (P := P) (fun a j hj h => before j a (notPre j hj) h) ha))

/-! The lease countdowns (R95). -/

section
variable {l j : ListId} {s : State}

theorem expireTalker_origins (l : ListId) (n : Byte) (i : OriginId) (s : State) :
    (expireTalker l n i s).talk.origins = s.talk.origins := by
  rw [expireTalker_talk]
  cases l <;> rfl

theorem countdownList_origins (l : ListId) (s : State) : (countdownList l s).talk.origins = s.talk.origins := by
  have entries : (modList l lowered s).talk.origins = s.talk.origins := by cases l <;> rfl
  rw [countdownList_eq]
  exact foldl_keeps (P := fun u : State => u.talk.origins = s.talk.origins)
    (fun u x _ kept => (expireTalker_origins ..).trans kept) entries

theorem countdownLeases_origins (s : State) : (countdownLeases s).talk.origins = s.talk.origins := by
  have confs : ∀ u, (forFin 64 (fun c => countdownList (.conf c)) u).talk.origins = u.talk.origins := fun u =>
    forFin_stands (fun u : State => u.talk.origins) (fun _ => countdownList_origins _) u
  have direct : ∀ u, (forFin 24 (fun m => countdownList (.direct m)) u).talk.origins = u.talk.origins := fun u =>
    forFin_stands (fun u : State => u.talk.origins) (fun _ => countdownList_origins _) u
  rw [countdownLeases, confs, direct]

theorem countdownList_other (h : l ≠ j) (s : State) : listOf (countdownList l s).talk j = listOf s.talk j := by
  rw [countdownList_eq]
  refine foldl_keeps (P := fun u : State => listOf u.talk j = listOf s.talk j) (fun u x _ kept => ?_) (modList_other _ s h)
  rw [expireTalker_talk, modList_other _ u h, kept]

/-- R95: the list that is counted down, at any node. -/
theorem countdownList_own (sound : ListSound (listOf s.talk l)) :
    listOf (countdownList l s).talk l = lapsed (listOf s.talk l) := by
  have ended := EndsWaiting.lowered sound
  rw [countdownList_eq, ended.list, modList_same, filter_ended sound]

end

end Sys2Proof.Machine
end

section
/-! SUPPORT. The talk at a switch point, resends and lease ends together (O36). -/

namespace Sys2Proof.Machine

open Sys2Proof

-- One theorem after another: all files together, as one text, elaborate on more threads than the memory limit lets run.
set_option Elab.async false

/-! ### The lists at a switch point (R95) -/

section
variable {s : State}

/-- R95: of lists counted down one after another, each is counted down once. -/
theorem countdown_run {n : Nat} {f : Fin n → ListId} (inj : ∀ i j, f i = f j → i = j) {i : Fin n}
    (sound : ListSound (listOf s.talk (f i))) :
    listOf (forFin n (fun k => countdownList (f k)) s).talk (f i) = lapsed (listOf s.talk (f i)) := by
  refine forFin_at (P := fun u : State => listOf u.talk (f i) = listOf s.talk (f i))
    (Q := fun u : State => listOf u.talk (f i) = lapsed (listOf s.talk (f i))) i
    (fun k u other kept => ?_) (fun u kept => ?_) (fun k u other kept => ?_) rfl
  · rw [countdownList_other (fun same => other (inj k i same)), kept]
  · rw [countdownList_own (kept ▸ sound), kept]
  · rw [countdownList_other (fun same => other (inj k i same)), kept]

theorem countdown_stands {n : Nat} {f : Fin n → ListId} {l : ListId} (other : ∀ k, f k ≠ l) (s : State) :
    listOf (forFin n (fun k => countdownList (f k)) s).talk l = listOf s.talk l :=
  forFin_stands (fun u : State => listOf u.talk l) (fun k => countdownList_other (other k)) s

theorem countdownLeases_list (l : ListId) (sound : ListSound (listOf s.talk l)) :
    listOf (countdownLeases s).talk l = lapsed (listOf s.talk l) := by
  have direct : ∀ (c : ConfId) (m : MixId), ListId.conf c ≠ ListId.direct m := fun _ _ h => nomatch h
  have conf : ∀ (m : MixId) (c : ConfId), ListId.direct m ≠ ListId.conf c := fun _ _ h => nomatch h
  rw [countdownLeases]
  cases l with
  | direct m =>
    rw [countdown_stands fun c => direct c m]
    exact countdown_run (f := ListId.direct) (fun i j same => ListId.direct.inj same) sound
  | conf c =>
    have before := countdown_stands (f := ListId.direct) (l := .conf c) (fun m => conf m c) s
    rw [countdown_run (f := ListId.conf) (fun i j same => ListId.conf.inj same) (by rwa [before]), before]

end

/-! ### One entry at a switch point (R85) -/

/-- Of the talk at most the origin entry `i` moves. -/
structure EntryMoved (i : OriginId) (s t : State) : Prop where
  frame : TalkFrame s t
  lists : ∀ l, listOf t.talk l = listOf s.talk l
  others : ∀ j, j ≠ i → t.talk.origins[j]'j.isLt = s.talk.origins[j]'j.isLt

section
variable {i : OriginId} {s t u : State}

theorem EntryMoved.refl (i : OriginId) (s : State) : EntryMoved i s s := ⟨.refl s, fun _ => rfl, fun _ _ => rfl⟩

theorem EntryMoved.trans (h : EntryMoved i s t) (g : EntryMoved i t u) : EntryMoved i s u :=
  ⟨h.frame.trans g.frame, fun l => (g.lists l).trans (h.lists l), fun j hj => (g.others j hj).trans (h.others j hj)⟩

theorem EntryMoved.of_cells (h : Only cellBlocks s t) (g : FlagsRise s t) : EntryMoved i s t := by
  have talk := h.keep .talk (by decide)
  exact ⟨.of_cells h g, fun l => by rw [talk], fun j _ => by rw [talk]⟩

theorem withOrigin_moved (i : OriginId) (x : Option OriginEntry) (s : State) : EntryMoved i s (withOrigin i x s) := by
  refine ⟨withOrigin_frame .., withOrigin_list x, fun j hj => ?_⟩
  show (s.talk.origins.set i x i.isLt)[j]'j.isLt = s.talk.origins[j]'j.isLt
  rw [vset_get, if_neg (Ne.symm hj)]

theorem outcomeAt_moved (target : TalkTarget) (i : OriginId) (o : TalkOutcome) (s : State) :
    EntryMoved i s (outcomeAt target i o s) := by
  have unwanted : EntryMoved i s (if o = .granted then sendTalkOff target i s else s) := by
    split
    · exact .of_cells (sendCell_only ..) (sendCell_flags ..)
    · exact .refl i s
  unfold outcomeAt
  dsimp only
  split
  · next e held =>
    split
    · rw [modOrigin_held held]
      exact withOrigin_moved ..
    · exact unwanted
  · exact unwanted

theorem answerTalk_moved (n : Byte) (i : OriginId) (target : TalkTarget) (o : TalkOutcome) (tag : Option Byte) (s : State) :
    EntryMoved i s (answerTalk n i target o tag s) := by
  unfold answerTalk
  split
  · exact outcomeAt_moved ..
  · exact .of_cells (sendCell_only ..) (sendCell_flags ..)

end

section
variable {i : OriginId} {s : State} {e : OriginEntry}

/-- R85: an entry whose countdown ends is resent. -/
theorem refreshOrigin_ended (held : s.talk.origins[i]'i.isLt = some e)
    (asks : stillAsks e.state = true) (ends : e.countdown ≤ 1) :
    refreshOrigin i s = resendOrigin i (withOrigin i (some (countedEntry e)) s) := by
  rw [refreshOrigin_counted held asks]
  exact resendIfDue_due (withOrigin_same _) asks (Nat.sub_eq_zero_of_le ends)

/-- R85: an entry whose countdown goes on. -/
theorem refreshOrigin_early (held : s.talk.origins[i]'i.isLt = some e)
    (asks : stillAsks e.state = true) (more : ¬e.countdown ≤ 1) :
    refreshOrigin i s = withOrigin i (some (countedEntry e)) s := by
  rw [refreshOrigin_counted held asks]
  refine resendIfDue_idle fun x same => .inr ?_
  cases (withOrigin_same _).symm.trans same
  show e.countdown - 1 ≠ 0
  omega

/-- R85: an entry whose authority is elsewhere, resent. -/
theorem refreshOrigin_cell (held : s.talk.origins[i]'i.isLt = some e) (asks : stillAsks e.state = true) (ends : e.countdown ≤ 1)
    (away : authorityList s e.target = none) : refreshOrigin i s =
      sendCell .talkOn 63 none (talkOnBytes i (resentEntry s e)) (withOrigin i (some (resentEntry s e)) s) := by
  have away : authorityList (withOrigin i (some (countedEntry e)) s) (countedEntry e).target = none :=
    (withOrigin_authority ..).trans away
  rw [refreshOrigin_ended held asks ends, resendOrigin_cell (withOrigin_same _) away, withOrigin_twice]
  rfl

/-- R85, R89: an entry whose authority is this node, resent. -/
theorem refreshOrigin_internal {l : ListId} (held : s.talk.origins[i]'i.isLt = some e) (asks : stillAsks e.state = true)
    (ends : e.countdown ≤ 1) (here : authorityList s e.target = some l) : refreshOrigin i s =
      admitTo l e.target (ownTalker s e.map i) none (withOrigin i (some (resentEntry s e)) s) := by
  have here : authorityList (withOrigin i (some (countedEntry e)) s) (countedEntry e).target = some l :=
    (withOrigin_authority ..).trans here
  rw [refreshOrigin_ended held asks ends, resendOrigin_internal (withOrigin_same _) here, withOrigin_twice]
  rfl

/-- R85: an entry served elsewhere changes its own place alone. -/
theorem refreshOrigin_away (away : ∀ e, s.talk.origins[i]'i.isLt = some e → authorityList s e.target = none) :
    EntryMoved i s (refreshOrigin i s) ∧
      (refreshOrigin i s).talk.origins[i]'i.isLt = (s.talk.origins[i]'i.isLt).map (refreshedEntry s) := by
  cases held : s.talk.origins[i]'i.isLt with
  | none =>
    rw [refreshOrigin_idle fun e same => absurd same (by rw [held]; nofun)]
    exact ⟨.refl i s, held⟩
  | some e =>
    by_cases asks : stillAsks e.state = true
    · by_cases ends : e.countdown ≤ 1
      · have cell := refreshOrigin_cell held asks ends (away e held)
        have sent := sendCell_only .talkOn 63 none (talkOnBytes i (resentEntry s e)) (withOrigin i (some (resentEntry s e)) s)
        have left : refreshedEntry s e = resentEntry s e := by rw [refreshedEntry, if_pos asks, if_pos ends]
        refine ⟨cell ▸ (withOrigin_moved ..).trans (.of_cells sent (sendCell_flags ..)), ?_⟩
        rw [cell, sent.keep .talk (by decide), withOrigin_same, Option.map_some, left]
      · have left : refreshedEntry s e = countedEntry e := by rw [refreshedEntry, if_pos asks, if_neg ends]
        rw [refreshOrigin_early held asks ends]
        refine ⟨withOrigin_moved .., ?_⟩
        rw [withOrigin_same, Option.map_some, left]
    · have left : refreshedEntry s e = e := by rw [refreshedEntry, if_neg asks]
      rw [refreshOrigin_idle fun x same => by cases held.symm.trans same; exact Bool.eq_false_iff.2 asks]
      refine ⟨.refl i s, ?_⟩
      rw [held, Option.map_some, left]

end

/-! ### All entries at a switch point (R85, R96) -/

/-- R80: on the way from `u` to `a` the authorities stand, and each entry that `p` names is served at another node. -/
structure AwayFor (p : OriginId → Prop) (u a : State) : Prop where
  frame : TalkFrame u a
  away : ∀ j, p j → ∀ e, a.talk.origins[j]'j.isLt = some e → authorityList u e.target = none

section
variable {p : OriginId → Prop} {q : OriginId → Bool} {i j : OriginId} {s u a : State}

theorem AwayFor.self (away : ∀ j, p j → ∀ e, u.talk.origins[j]'j.isLt = some e → authorityList u e.target = none) :
    AwayFor p u u := ⟨.refl u, away⟩

theorem refreshedEntry_target (s : State) (e : OriginEntry) : (refreshedEntry s e).target = e.target := by
  unfold refreshedEntry
  split
  · split <;> rfl
  · rfl

/-- R85: an entry served at another node, refreshed. -/
theorem AwayFor.refreshed (h : AwayFor p u a) (named : p j) : AwayFor p u (refreshOrigin j a) ∧
    EntryMoved j a (refreshOrigin j a) ∧
      (refreshOrigin j a).talk.origins[j]'j.isLt = (a.talk.origins[j]'j.isLt).map (refreshedEntry u) := by
  obtain ⟨moved, entry⟩ := refreshOrigin_away fun e held => (h.frame.authority e.target).trans (h.away j named e held)
  have same : refreshedEntry a = refreshedEntry u := funext h.frame.refreshed
  rw [same] at entry
  refine ⟨⟨h.frame.trans moved.frame, fun k hk e held => ?_⟩, moved, entry⟩
  by_cases here : k = j
  · subst here
    rw [entry, Option.map_eq_some_iff] at held
    obtain ⟨e', before, rfl⟩ := held
    rw [refreshedEntry_target]
    exact h.away k hk e' before
  · exact h.away k hk e ((moved.others k here).symm.trans held)

/-- R85: entries served at other nodes change no list. -/
theorem refreshOrigins_lists (h : AwayFor p u a) (named : ∀ j, q j = true → p j) (l : ListId) :
    listOf (refreshOrigins q a).talk l = listOf a.talk l := by
  refine (forFin_induct (fun b : State => AwayFor p u b ∧ listOf b.talk l = listOf a.talk l) _ (fun j b hb => ?_) a ⟨h, rfl⟩).2
  split
  · next hq =>
    obtain ⟨still, moved, _⟩ := hb.1.refreshed (named j hq)
    exact ⟨still, (moved.lists l).trans hb.2⟩
  · exact hb

/-- R85: where every entry is served at another node, each is refreshed once. -/
theorem refreshOrigins_entry (away : ∀ (j : OriginId) e, u.talk.origins[j]'j.isLt = some e → authorityList u e.target = none)
    (i : OriginId) :
    (refreshOrigins (fun _ => true) u).talk.origins[i] = (u.talk.origins[i]'i.isLt).map (refreshedEntry u) := by
  have others : ∀ x (j : OriginId) (b : State), j ≠ i → AwayFor (fun _ => True) u b ∧ b.talk.origins[i]'i.isLt = x →
      AwayFor (fun _ => True) u (refreshOrigin j b) ∧ (refreshOrigin j b).talk.origins[i]'i.isLt = x := fun x j b other h => by
    obtain ⟨still, moved, _⟩ := h.1.refreshed trivial
    exact ⟨still, (moved.others i other.symm).trans h.2⟩
  have now : ∀ b : State, AwayFor (fun _ => True) u b ∧ b.talk.origins[i]'i.isLt = u.talk.origins[i]'i.isLt →
      AwayFor (fun _ => True) u (refreshOrigin i b) ∧
        (refreshOrigin i b).talk.origins[i]'i.isLt = (u.talk.origins[i]'i.isLt).map (refreshedEntry u) := fun b h => by
    obtain ⟨still, _, entry⟩ := h.1.refreshed trivial
    exact ⟨still, entry.trans (congrArg _ h.2)⟩
  have run := forFin_at (f := fun j acc => if true then refreshOrigin j acc else acc) i (others _) now (others _)
    ⟨.self fun j _ => away j, rfl⟩
  rw [refreshOrigins]
  exact run.2

/-- R96: the refreshes of one entry alone. -/
theorem refreshOrigins_one (here : q i = true) (others : ∀ j, j ≠ i → q j = false) (s : State) :
    refreshOrigins q s = refreshOrigin i s := by
  refine forFin_at (P := fun b => b = s) (Q := fun b => b = refreshOrigin i s) i (fun j b other h => ?_) (fun b h => ?_)
    (fun j b other h => ?_) rfl
  · rwa [others j other]
  · rw [here, h]
    rfl
  · rwa [others j other]

end

/-! ### The switch point of the talk (R85, R95, R96) -/

section
variable {s : State} {i : OriginId} {l : ListId}

/-- R95, R96: where every entry is served at another node, the lists lapse. -/
theorem talkSwitchPoint_list (sound : ListsSound s.talk)
    (away : ∀ (i : OriginId) e, s.talk.origins[i]'i.isLt = some e → authorityList s e.target = none) (l : ListId) :
    listOf (talkSwitchPoint s).talk l = lapsed (listOf s.talk l) := by
  have frame := countdownLeases_frame s.countChoice
  have away' : AwayFor (fun _ => True) s.countChoice (countdownLeases s.countChoice) :=
    ⟨frame, fun j _ e held => away j e (by rwa [countdownLeases_origins] at held)⟩
  rw [talkSwitchPoint_elsewhere s away, refreshOrigins_lists away' fun _ _ => trivial]
  exact countdownLeases_list l (sound l)

/-- R85, R96: where every entry is served at another node, each is refreshed. -/
theorem talkSwitchPoint_entry (away : ∀ (i : OriginId) e, s.talk.origins[i]'i.isLt = some e → authorityList s e.target = none)
    (i : OriginId) : (talkSwitchPoint s).talk.origins[i]'i.isLt = (s.talk.origins[i]'i.isLt).map (refreshedEntry s) := by
  have frame := countdownLeases_frame s.countChoice
  have same : refreshedEntry (countdownLeases s.countChoice) = refreshedEntry s := funext frame.refreshed
  have away' : ∀ (j : OriginId) e, (countdownLeases s.countChoice).talk.origins[j] = some e →
      authorityList (countdownLeases s.countChoice) e.target = none := fun j e held => by
    rw [countdownLeases_origins] at held
    exact (frame.authority e.target).trans (away j e held)
  rw [talkSwitchPoint_elsewhere s away, refreshOrigins_entry away', same, countdownLeases_origins]
  rfl

/-- R92: a talker that is present or finds room is entered, and no other entry moves. -/
theorem admitTo_entered {T : Talker} (target : TalkTarget) (tag : Option Byte)
    (enters : (∃ x ∈ listOf s.talk l, x.node = T.node ∧ x.origin = T.origin) ∨ (listOf s.talk l).length < 8) :
    T ∈ listOf (admitTo l target T tag s).talk l ∧ TalkFrame s (admitTo l target T tag s) ∧
      ∀ j, j ≠ T.origin → (admitTo l target T tag s).talk.origins[j]'j.isLt = s.talk.origins[j]'j.isLt := by
  have settled : ∀ f, T ∈ f (listOf s.talk l) → ∀ t,
      t = answerTalk T.node T.origin target .granted tag (announceListOn l T (modList l f s)) →
      T ∈ listOf t.talk l ∧ TalkFrame s t ∧ ∀ j, j ≠ T.origin → t.talk.origins[j]'j.isLt = s.talk.origins[j]'j.isLt := by
    rintro f hT _ rfl
    have moved : EntryMoved T.origin (modList l f s)
        (answerTalk T.node T.origin target .granted tag (announceListOn l T (modList l f s))) :=
      (EntryMoved.of_cells (announceListOn_only ..) (announceListOn_flags ..)).trans (answerTalk_moved ..)
    have origins : (modList l f s).talk.origins = s.talk.origins := by cases l <;> rfl
    refine ⟨?_, (modList_frame ..).trans moved.frame, fun j other => ?_⟩
    · rw [moved.lists, modList_same]
      exact hT
    · rw [moved.others j other, origins]
  by_cases present : ∃ x ∈ listOf s.talk l, x.node = T.node ∧ x.origin = T.origin
  · obtain ⟨x, hx, same⟩ := present
    refine settled (fun _ => renewIn T (listOf s.talk l)) ?_ _ (admitTo_present target tag ⟨x, hx, same⟩)
    exact List.mem_map.2 ⟨x, hx, if_pos (isTalker_iff.2 same)⟩
  · have new : ∀ x ∈ listOf s.talk l, ¬(x.node = T.node ∧ x.origin = T.origin) := fun x hx same => present ⟨x, hx, same⟩
    exact settled (fun _ => listOf s.talk l ++ [T]) (by simp) _ (admitTo_room target tag new (enters.resolve_left present))

/-- R95, R90: after a lapse a talker of a list of eight at most is still there, or its list has room. -/
theorem lapsed_enters {L : List Talker} (short : L.length ≤ 8) {x : Talker} (hx : x ∈ L) :
    (∃ y ∈ lapsed L, y.node = x.node ∧ y.origin = x.origin) ∨ (lapsed L).length < 8 := by
  by_cases goes : 2 ≤ x.lease
  · exact .inl ⟨_, List.mem_map_of_mem (List.mem_filter.2 ⟨hx, decide_eq_true goes⟩), rfl, rfl⟩
  · refine .inr ?_
    have less : (L.filter fun x => 2 ≤ x.lease).length < L.length :=
      List.length_filter_lt_length_iff_exists.2 ⟨x, hx, by simpa using goes⟩
    rw [lapsed, List.length_map]
    omega

theorem mem_lapsed {L : List Talker} {x : Talker} (hx : x ∈ L) (goes : 2 ≤ x.lease) :
    { x with lease := x.lease - 1 } ∈ lapsed L :=
  List.mem_map_of_mem (f := fun x : Talker => { x with lease := x.lease - 1 }) (List.mem_filter.2 ⟨hx, decide_eq_true goes⟩)

/-- R96: the talker that origin index `i` of this node made stands in a list, with this lease. -/
def StandsIn (l : ListId) (addr : Byte) (i : OriginId) (lease : Nat) (s : State) : Prop :=
  ∃ y ∈ listOf s.talk l, y.node = addr ∧ y.origin = i ∧ y.lease = lease

/-- R89, R92: an entry of this node's own authority, resent to a list that its talker is in or finds room in. -/
theorem refreshed_here {u a : State} {e : OriginEntry} (h : AwayFor (· ≠ i) u a) (held : a.talk.origins[i]'i.isLt = some e)
    (asks : stillAsks e.state = true) (ends : e.countdown ≤ 1) (here : authorityList u e.target = some l)
    (enters : (∃ x ∈ listOf a.talk l, x.node = u.trunk.addr ∧ x.origin = i) ∨ (listOf a.talk l).length < 8) :
    AwayFor (· ≠ i) u (refreshOrigin i a) ∧ StandsIn l u.trunk.addr i u.mgmt.params.lease (refreshOrigin i a) := by
  have resent := withOrigin_moved i (some (resentEntry a e)) a
  rw [← resent.lists l, ← h.frame.addr] at enters
  rw [refreshOrigin_internal held asks ends ((h.frame.authority e.target).trans here)]
  obtain ⟨entered, frame, others⟩ := admitTo_entered (T := ownTalker a e.map i) e.target none enters
  refine ⟨⟨h.frame.trans (resent.frame.trans frame), fun j other x at_j => h.away j other x ?_⟩,
    _, entered, h.frame.addr, rfl, h.frame.lease⟩
  exact ((others j other).trans (resent.others j other)).symm.trans at_j

/-- R96: the resend of origin entry `e` at index `i` meets the list `l` of this node, as the only one, and its talker there. -/
structure MeetsList (s : State) (i : OriginId) (e : OriginEntry) (l : ListId) : Prop where
  held : s.talk.origins[i]'i.isLt = some e
  asks : stillAsks e.state = true
  ends : e.countdown ≤ 1
  here : authorityList s e.target = some l
  others : ∀ j, j ≠ i → ∀ y, s.talk.origins[j]'j.isLt = some y → authorityList s y.target = none
  present : ∃ y ∈ listOf s.talk l, y.node = s.trunk.addr ∧ y.origin = i

section
variable {e : OriginEntry} {s u : State}

theorem MeetsList.away (h : MeetsList s i e l) : AwayFor (· ≠ i) s.countChoice s.countChoice := .self h.others

theorem AwayFor.lapsed {p : OriginId → Prop} (h : AwayFor p u s) : AwayFor p u (countdownLeases s) :=
  ⟨h.frame.trans (countdownLeases_frame s), fun j hj y at_j => h.away j hj y (by rwa [countdownLeases_origins] at at_j)⟩

theorem MeetsList.others_late (h : MeetsList s i e l) (j : OriginId) (other : j ≠ i) : refreshedEarly s j = false :=
  refreshedEarly_elsewhere s j (h.others j other)

/-- R96: the refresh is taken first, and the lease then falls by one. -/
theorem MeetsList.early (h : MeetsList s i e l) (sound : ListsSound s.talk) (lease : 2 ≤ s.mgmt.params.lease)
    (early : refreshedEarly s i = true) : StandsIn l s.trunk.addr i (s.mgmt.params.lease - 1) (talkSwitchPoint s) := by
  have kept := (refreshOrigins_registersHeld (refreshedEarly s) s.countChoice).lists l (sound l)
  obtain ⟨away, y, entered, node, origin, full⟩ := refreshed_here h.away h.held h.asks h.ends h.here (.inl h.present)
  have rest : ∀ j, (!refreshedEarly s j) = true → j ≠ i := fun j late same => by
    rw [same, early] at late
    cases late
  rw [refreshOrigins_one early h.others_late] at kept
  rw [StandsIn, talkSwitchPoint, refreshOrigins_one early h.others_late, refreshOrigins_lists away.lapsed rest,
    countdownLeases_list l kept]
  exact ⟨_, mem_lapsed entered (full.symm ▸ lease), node, origin, congrArg (· - 1) full⟩

/-- R96: the countdown is taken first, and the refresh then gives the full lease. -/
theorem MeetsList.late (h : MeetsList s i e l) (sound : ListsSound s.talk) (late : refreshedEarly s i = false) :
    StandsIn l s.trunk.addr i s.mgmt.params.lease (talkSwitchPoint s) := by
  have none : refreshedEarly s = fun _ => false := funext fun j => by
    by_cases same : j = i
    · rwa [same]
    · exact h.others_late j same
  have last : talkSwitchPoint s = refreshOrigins (fun _ => true) (countdownLeases s.countChoice) := by
    simp only [talkSwitchPoint, none]
    rw [refreshOrigins_none _ fun _ => rfl]
    rfl
  have enters : (∃ x ∈ lapsed (listOf s.talk l), x.node = s.trunk.addr ∧ x.origin = i) ∨
      (lapsed (listOf s.talk l)).length < 8 := by
    obtain ⟨x, hx, node, origin⟩ := h.present
    rw [← node, ← origin]
    exact lapsed_enters (sound l).1 hx
  have before : ∀ (j : OriginId) (a : State), j ≠ i → AwayFor (· ≠ i) s.countChoice a ∧
      listOf a.talk l = lapsed (listOf s.talk l) ∧ a.talk.origins[i]'i.isLt = some e →
      AwayFor (· ≠ i) s.countChoice (refreshOrigin j a) ∧ listOf (refreshOrigin j a).talk l = lapsed (listOf s.talk l) ∧
        (refreshOrigin j a).talk.origins[i]'i.isLt = some e := fun j a other ⟨away, list, entry⟩ => by
    obtain ⟨still, moved, _⟩ := away.refreshed other
    exact ⟨still, (moved.lists l).trans list, (moved.others i other.symm).trans entry⟩
  have now : ∀ a : State, AwayFor (· ≠ i) s.countChoice a ∧ listOf a.talk l = lapsed (listOf s.talk l) ∧
      a.talk.origins[i]'i.isLt = some e → AwayFor (· ≠ i) s.countChoice (refreshOrigin i a) ∧
        StandsIn l s.trunk.addr i s.mgmt.params.lease (refreshOrigin i a) := fun a ⟨away, list, entry⟩ =>
    refreshed_here away entry h.asks h.ends h.here (by rwa [← list] at enters)
  have after : ∀ (j : OriginId) (a : State), j ≠ i → AwayFor (· ≠ i) s.countChoice a ∧
      StandsIn l s.trunk.addr i s.mgmt.params.lease a → AwayFor (· ≠ i) s.countChoice (refreshOrigin j a) ∧
        StandsIn l s.trunk.addr i s.mgmt.params.lease (refreshOrigin j a) := fun j a other ⟨away, stands⟩ => by
    obtain ⟨still, moved, _⟩ := away.refreshed other
    refine ⟨still, ?_⟩
    rw [StandsIn, moved.lists]
    exact stands
  have run := forFin_at (f := fun j acc => if true then refreshOrigin j acc else acc) i before now after
    ⟨h.away.lapsed, countdownLeases_list l (sound l), by rw [countdownLeases_origins]; exact h.held⟩
  rw [last, refreshOrigins]
  exact run.2

/-- R96: whichever is taken first, a talker of this node that is refreshed ends with the full lease or one less. -/
theorem MeetsList.stands (h : MeetsList s i e l) (sound : ListsSound s.talk) (lease : 2 ≤ s.mgmt.params.lease) :
    ∃ y ∈ listOf (talkSwitchPoint s).talk l, y.node = s.trunk.addr ∧ y.origin = i ∧
      (y.lease = s.mgmt.params.lease ∨ y.lease = s.mgmt.params.lease - 1) := by
  cases early : refreshedEarly s i with
  | true =>
    obtain ⟨y, hy, node, origin, less⟩ := h.early sound lease early
    exact ⟨y, hy, node, origin, .inr less⟩
  | false =>
    obtain ⟨y, hy, node, origin, full⟩ := h.late sound early
    exact ⟨y, hy, node, origin, .inl full⟩

end

end

/-! ### The delivery (R36) -/

section
variable {e : Epoch} {s : State}

theorem announceBus_deaf {b : BusId} (deaf : ∀ m k cap, ¬hears s b m k cap) : announceBus s b = s := by
  have row : ∀ m, announceRow b m s = s := fun m =>
    forFin_induct (fun u => u = s) _ (fun k u h => h.symm ▸ announceToKey_unheard (deaf m k)) s rfl
  exact forFin_induct (fun u => u = s) _ (fun m u h => h.symm ▸ row m) s rfl

/-- R36: where no key hears the buses, the talk of a switch point is that of the Talk Authority. -/
theorem deliver_talk (deaf : ∀ b m k cap, ¬hears s b m k cap) :
    (deliver e s).talk = (talkSwitchPoint (routerSwitchPoint e (trunkSwitchPoint s))).talk := by
  have unheard : announced e s = resolved e s :=
    foldl_keeps (P := fun u => u = resolved e s) (fun u b _ h => h.symm ▸
      announceBus_deaf fun m k cap hearing => deaf b m k cap ((resolved_hears ..).1 hearing)) rfl
  have ended : (deliver e s).talk = (announced e s).talk := by
    rw [deliver_eq, (mgmtSwitchPoint_only _).keep .talk (by decide)]
    exact (lampSwitchPoint_only ..).keep .talk (by decide)
  rw [ended, unheard, (resolved_lamps e s).only.keep .talk (by decide)]
  exact (stepped_talked e s).keep .talk (by decide)

/-! What the Talk Authority finds at a switch point is what it left. -/

theorem pointed_talk (e : Epoch) (s : State) : (routerSwitchPoint e (trunkSwitchPoint s)).talk = s.talk := rfl

theorem pointed_authority (e : Epoch) (s : State) (target : TalkTarget) :
    authorityList (routerSwitchPoint e (trunkSwitchPoint s)) target = authorityList s target :=
  authorityList_congr rfl (fun _ => rfl) target

theorem pointed_refreshed (e : Epoch) (s : State) :
    refreshedEntry (routerSwitchPoint e (trunkSwitchPoint s)) = refreshedEntry s := rfl

theorem deliver_list (deaf : ∀ b m k cap, ¬hears s b m k cap) (sound : ListsSound s.talk)
    (away : ∀ (i : OriginId) x, s.talk.origins[i]'i.isLt = some x → authorityList s x.target = none) (l : ListId) :
    listOf (deliver e s).talk l = lapsed (listOf s.talk l) := by
  have list : listOf (talkSwitchPoint (routerSwitchPoint e (trunkSwitchPoint s))).talk l =
      lapsed (listOf (routerSwitchPoint e (trunkSwitchPoint s)).talk l) :=
    talkSwitchPoint_list (by rwa [pointed_talk]) (fun i x held => (pointed_authority ..).trans (away i x held)) l
  rw [deliver_talk deaf, list, pointed_talk]

theorem deliver_entry (deaf : ∀ b m k cap, ¬hears s b m k cap)
    (away : ∀ (i : OriginId) x, s.talk.origins[i]'i.isLt = some x → authorityList s x.target = none) (i : OriginId) :
    (deliver e s).talk.origins[i] = (s.talk.origins[i]'i.isLt).map (refreshedEntry s) := by
  have entry : (talkSwitchPoint (routerSwitchPoint e (trunkSwitchPoint s))).talk.origins[i]'i.isLt =
      (routerSwitchPoint e (trunkSwitchPoint s)).talk.origins[i].map
        (refreshedEntry (routerSwitchPoint e (trunkSwitchPoint s))) :=
    talkSwitchPoint_entry (fun j x held => (pointed_authority ..).trans (away j x held)) i
  rw [deliver_talk deaf, entry, pointed_refreshed, pointed_talk]

theorem MeetsList.pointed {i : OriginId} {x : OriginEntry} {l : ListId} (h : MeetsList s i x l) (e : Epoch) :
    MeetsList (routerSwitchPoint e (trunkSwitchPoint s)) i x l where
  held := h.held
  asks := h.asks
  ends := h.ends
  here := (pointed_authority ..).trans h.here
  others j other y held := (pointed_authority ..).trans (h.others j other y held)
  present := h.present

theorem deliver_talker (deaf : ∀ b m k cap, ¬hears s b m k cap) (sound : ListsSound s.talk) {i : OriginId} {x : OriginEntry}
    {l : ListId} (h : MeetsList s i x l) (lease : 2 ≤ s.mgmt.params.lease) :
    ∃ y ∈ listOf (deliver e s).talk l, y.node = s.trunk.addr ∧ y.origin = i ∧
      (y.lease = s.mgmt.params.lease ∨ y.lease = s.mgmt.params.lease - 1) := by
  rw [deliver_talk deaf]
  exact (h.pointed e).stands sound lease

end

/-! ### The commands (R84, R85, R95) -/

theorem not_stillAsks_iff {x : OriginState} : stillAsks x = false ↔ ¬(x = .requested ∨ x = .granted ∨ x = .noAnswer) := by
  rw [← stillAsks_iff, Bool.not_eq_true]

section
variable {s : State} {i : OriginId}

theorem exec_originResend (member : isMember s.trunk = true) : exec (.originResend i) s = .next (resendIfDue i s) := by
  show act (resendIfDue i) s = _
  rw [act, if_pos member]

theorem exec_originResend_due {e : OriginEntry} (member : isMember s.trunk = true) (held : s.talk.origins[i]'i.isLt = some e)
    (asks : e.state = .requested ∨ e.state = .granted ∨ e.state = .noAnswer) (zero : e.countdown = 0) :
    exec (.originResend i) s = .next (resendOrigin i s) := by
  rw [exec_originResend member, resendIfDue_due held (stillAsks_iff.2 asks) zero]

variable {l : ListId} {n : Byte}

theorem exec_leaseExpiry (member : isMember s.trunk = true) :
    exec (.leaseExpiry l n i) s = .next (expireIfDue l n i s) := by
  show act (expireIfDue l n i) s = _
  rw [act, if_pos member]

theorem exec_leaseExpiry_stands (member : isMember s.trunk = true)
    (stands : ¬∃ x ∈ listOf s.talk l, x.node = n ∧ x.origin = i ∧ x.lease = 0) :
    exec (.leaseExpiry l n i) s = .next s := by
  rw [exec_leaseExpiry member, expireIfDue, if_neg (leaseOver_iff.not.2 stands)]

theorem exec_leaseExpiry_ended (member : isMember s.trunk = true)
    (ended : ∃ x ∈ listOf s.talk l, x.node = n ∧ x.origin = i ∧ x.lease = 0) :
    exec (.leaseExpiry l n i) s = .next (expireTalker l n i s) := by
  rw [exec_leaseExpiry member, expireIfDue, if_pos (leaseOver_iff.2 ended)]

end

/-! The entry after a switch point, by its state and countdown (R85). -/

section
variable {s : State} {e : OriginEntry}

theorem refreshedEntry_settled (settled : ¬(e.state = .requested ∨ e.state = .granted ∨ e.state = .noAnswer)) :
    refreshedEntry s e = e := by
  rw [refreshedEntry, if_neg (stillAsks_iff.not.2 settled)]

theorem refreshedEntry_later (asks : e.state = .requested ∨ e.state = .granted ∨ e.state = .noAnswer)
    (more : 2 ≤ e.countdown) : refreshedEntry s e = countedEntry e := by
  rw [refreshedEntry, if_pos (stillAsks_iff.2 asks), if_neg (by omega)]

theorem refreshedEntry_due (asks : e.state = .requested ∨ e.state = .granted ∨ e.state = .noAnswer)
    (ends : e.countdown ≤ 1) : refreshedEntry s e = resentEntry s e := by
  rw [refreshedEntry, if_pos (stillAsks_iff.2 asks), if_pos ends]

end

/-- Settles O36, by the cases of the commands, by the expiries of one list, and by the runs over all lists and entries. -/
theorem talkCountsEnd : Obligations.TalkCountsEnd := by
  refine ⟨fun i s member => ⟨fun idle => ?_, fun e held asks zero => ⟨fun away => ?_, fun l here => ?_⟩, fun idle => ?_,
      fun e held asks => ?_⟩,
    fun l n i s member => ⟨exec_leaseExpiry_stands member, fun ended => ⟨fun m p hl point => ?_, fun m hl none => ?_,
      fun c hl home => ?_, fun c hl away => ?_⟩⟩,
    fun l s member sound => ?_, fun ep s sound settled => ?_⟩
  · rw [exec_originResend member, resendIfDue_idle]
    exact fun e held => (idle e held).imp not_stillAsks_iff.2 id
  · rw [exec_originResend_due member held asks zero, resendOrigin_cell held away, resentEntry_eq]
    rfl
  · rw [exec_originResend_due member held asks zero, resendOrigin_internal held here, resentEntry_eq]
    rfl
  · exact refreshOrigin_idle fun e held => not_stillAsks_iff.2 (idle e held)
  · rw [refreshOrigin_counted held (stillAsks_iff.2 asks)]
    exact exec_originResend (s := withOrigin i (some (countedEntry e)) s) member
  · rw [exec_leaseExpiry_ended member ended, hl, expireTalker_point point]
    rfl
  · rw [exec_leaseExpiry_ended member ended, hl, expireTalker_pointless none]
    rfl
  · rw [exec_leaseExpiry_ended member ended, hl, expireTalker_home home]
    rfl
  · rw [exec_leaseExpiry_ended member ended, hl, expireTalker_mirror away]
    rfl
  · rw [countdownList_eq, expiries_by_command (.lowered sound) member]
    rfl
  · have deaf : ∀ b m k cap, ¬hears s b m k cap := fun b m k cap hearing =>
      Bool.eq_false_iff.1 (settled m k b cap hearing.1) hearing.2
    refine ⟨fun away => ⟨deliver_list deaf sound away, fun i => ⟨fun none => ?_, fun x held => ?_⟩⟩,
      fun i x l held asks ends here others present =>
        deliver_talker deaf sound ⟨held, stillAsks_iff.2 asks, ends, here, fun j other y => others j y other, present⟩⟩
    · rw [deliver_entry deaf away, none]
      rfl
    · rw [deliver_entry deaf away, held, Option.map_some]
      refine ⟨fun settled => ?_, fun asks more => ?_, fun asks ends => ?_⟩
      · rw [refreshedEntry_settled settled]
      · rw [refreshedEntry_later asks more]
        rfl
      · rw [refreshedEntry_due asks ends, resentEntry_eq]

end Sys2Proof.Machine
end
